-- ==== Sys2Proof/Word.lean ====
section
/-! DEFINITION. The word types of the block and the spec's two wrapping functions (00_scope.md R8, R9). -/

namespace Sys2Proof

/-- A byte: a general register, a timer, a cell of memory (R8, R9). -/
abbrev Byte := BitVec 8

/-- A 16-bit word: an instruction, PC, I, a stack slot (R8). -/
abbrev Word := BitVec 16

/-- The number of a general register, V0 to VF (R30). -/
abbrev RegIdx := Fin 16

/-- A key of the hexadecimal keypad (R8, R237). -/
abbrev Key := Fin 16

/-- `u8(v)` of R9: the value modulo 256. -/
def u8 (v : Nat) : Byte := BitVec.ofNat 8 v

/-- `u16(v)` of R9: the value modulo 65536. -/
def u16 (v : Nat) : Word := BitVec.ofNat 16 v

end Sys2Proof
end

