-- ==== Sys2Proof/Syntax.lean ====
section
/-! DEFINITION. The 34 instructions of spec/opcode_table.json, one constructor per row (R103). -/

namespace Sys2Proof

/-- The instructions. Every operand has exactly the width of its field (R11, R92): a register
number is `Fin 16`, NN a byte, NNN 12 bits, N 4 bits. X may equal Y, and VF may be named anywhere. -/
inductive Instr where
  /-- CLS, 00E0 (R120). -/
  | cls
  /-- RET, 00EE (R121). -/
  | ret
  /-- JP, 1NNN (R130). -/
  | jp (nnn : BitVec 12)
  /-- CALL, 2NNN (R131). -/
  | call (nnn : BitVec 12)
  /-- SE_imm, 3XNN (R142). -/
  | seImm (x : RegIdx) (nn : Byte)
  /-- SNE_imm, 4XNN (R143). -/
  | sneImm (x : RegIdx) (nn : Byte)
  /-- SE_reg, 5XY0 (R144). -/
  | seReg (x y : RegIdx)
  /-- LD_imm, 6XNN (R152). -/
  | ldImm (x : RegIdx) (nn : Byte)
  /-- ADD_imm, 7XNN (R153). -/
  | addImm (x : RegIdx) (nn : Byte)
  /-- LD_reg, 8XY0 (R154). -/
  | ldReg (x y : RegIdx)
  /-- OR, 8XY1 (R155). -/
  | orReg (x y : RegIdx)
  /-- AND, 8XY2 (R156). -/
  | andReg (x y : RegIdx)
  /-- XOR, 8XY3 (R157). -/
  | xorReg (x y : RegIdx)
  /-- ADD_reg, 8XY4 (R158). -/
  | addReg (x y : RegIdx)
  /-- SUB, 8XY5 (R159). -/
  | sub (x y : RegIdx)
  /-- SHR, 8XY6 (R160): Y is decoded and ignored. -/
  | shr (x y : RegIdx)
  /-- SUBN, 8XY7 (R161). -/
  | subn (x y : RegIdx)
  /-- SHL, 8XYE (R162): Y is decoded and ignored. -/
  | shl (x y : RegIdx)
  /-- SNE_reg, 9XY0 (R145). -/
  | sneReg (x y : RegIdx)
  /-- LD_I, ANNN (R190). -/
  | ldI (nnn : BitVec 12)
  /-- JP_V0, BNNN (R132). -/
  | jpV0 (nnn : BitVec 12)
  /-- RND, CXNN (R170). -/
  | rnd (x : RegIdx) (nn : Byte)
  /-- DRW, DXYN (R175). -/
  | drw (x y : RegIdx) (n : BitVec 4)
  /-- SKP, EX9E (R146). -/
  | skp (x : RegIdx)
  /-- SKNP, EXA1 (R147). -/
  | sknp (x : RegIdx)
  /-- LD_Vx_DT, FX07 (R191). -/
  | ldVxDt (x : RegIdx)
  /-- LD_Vx_K, FX0A (R210). -/
  | ldVxK (x : RegIdx)
  /-- LD_DT_Vx, FX15 (R192). -/
  | ldDtVx (x : RegIdx)
  /-- LD_ST_Vx, FX18 (R193). -/
  | ldStVx (x : RegIdx)
  /-- ADD_I, FX1E (R194). -/
  | addI (x : RegIdx)
  /-- LD_F, FX29 (R195). -/
  | ldF (x : RegIdx)
  /-- LD_B, FX33 (R197). -/
  | ldB (x : RegIdx)
  /-- LD_mem_Vx, FX55 (R198). -/
  | ldMemVx (x : RegIdx)
  /-- LD_Vx_mem, FX65 (R199). -/
  | ldVxMem (x : RegIdx)
  deriving DecidableEq, Repr

end Sys2Proof
end

