-- ==== Sys2Proof/Config.lean ====
section
/-! DEFINITION. The implementation parameters of 00_scope.md R8 and the model's free values. -/

namespace Sys2Proof

/-- MEM_SIZE (R8): the addresses are 0x000 to 0xFFF. -/
def Config.memSize : Nat := 0x1000

/-- PROGRAM_BASE (R8): where `load` puts a program image. -/
def Config.programBase : Nat := 0x200

/-- The longest program image: 0x1000 - 0x200 bytes (R69, D23). -/
def Config.maxImage : Nat := 3584

/-- STACK_DEPTH (R8). -/
def Config.stackDepth : Nat := 16

/-- FONT_TABLE (R8, R66): the default font, glyph d at address 5*d.
UNSAFE: the bytes are the spec's default of a parameter (D17, K1); see log entry 6. -/
def Config.fontTable : List Byte :=
  [0xF0, 0x90, 0x90, 0x90, 0xF0] ++ [0x20, 0x60, 0x20, 0x20, 0x70] ++
  [0xF0, 0x10, 0xF0, 0x80, 0xF0] ++ [0xF0, 0x10, 0xF0, 0x10, 0xF0] ++
  [0x90, 0x90, 0xF0, 0x10, 0x10] ++ [0xF0, 0x80, 0xF0, 0x10, 0xF0] ++
  [0xF0, 0x80, 0xF0, 0x90, 0xF0] ++ [0xF0, 0x10, 0x20, 0x40, 0x40] ++
  [0xF0, 0x90, 0xF0, 0x90, 0xF0] ++ [0xF0, 0x90, 0xF0, 0x10, 0xF0] ++
  [0xF0, 0x90, 0xF0, 0x90, 0x90] ++ [0xE0, 0x90, 0xE0, 0x90, 0xE0] ++
  [0xF0, 0x80, 0x80, 0x80, 0xF0] ++ [0xE0, 0x90, 0x90, 0x90, 0xE0] ++
  [0xF0, 0x80, 0xF0, 0x80, 0xF0] ++ [0xF0, 0x80, 0xF0, 0x80, 0x80]

/-- MEM_FILL (R8, D16). UNSAFE: the default of a parameter (U14); see log entry 7. -/
def Config.memFill : Byte := 0x00

/-- What a byte of memory that nothing has written reads as: its content after construction
with the default FONT_TABLE and MEM_FILL (R55, R66, R67). -/
def Config.initialByte (a : Nat) : Byte := Config.fontTable.getD a Config.memFill

/-- FONT_DIGIT_POLICY (R8, R196): what FX29 gives for a value above 0xF. -/
inductive FontDigitPolicy where
  /-- `I <- zext_16(x) * 5`. -/
  | linear
  /-- `I <- (x & 0xF) * 5`. -/
  | lowNibble
  /-- An unconstrained 16-bit draw. -/
  | any
  deriving DecidableEq, Repr

/-- The default of the parameter FONT_DIGIT_POLICY (R8, R196, D13); the block's own policy is
`State.fontPolicy`. UNSAFE for V[X] > 0xF; see log entry 8. -/
def Config.fontDigitPolicy : FontDigitPolicy := .linear

/-- FREE VALUE (log entry 2): the key the port presents at step number n (R237, U7). -/
opaque Config.freeKey : Nat → Option Key

/-- FREE VALUE (log entry 2): the random byte at step number n (R171, U6). -/
opaque Config.freeRand : Nat → Byte

/-- FREE VALUE (log entry 3): how many ticks fall between step n and the next (R232, U5). -/
opaque Config.freeTicks : Nat → Nat

/-- FREE VALUE (log entry 8): the 16-bit draw of FX29 under the policy `any` (R196). -/
opaque Config.freeGlyphAddr : Nat → Word

end Sys2Proof
end

