-- ==== Sys2Proof/WellFormed.lean ====
section
/-! DEFINITION. What the spec checks of an input before it means anything. The operands of `Instr`
have exactly their fields' widths (R11, R92), so every `Instr` is well formed by its type: no check
of an instruction's operands exists in the spec, and none is made here. The two checks the spec does
make are of byte sequences: the decoder's (R93) and the loader's (R69). -/

namespace Sys2Proof

/-- The decoder's one validation: its input is exactly 2 bytes (R93). -/
def wordBytesWellFormed (bs : List Byte) : Bool := bs.length == 2

/-- The loader's one validation: the image fits 0x200 to 0xFFF (R69, D23). -/
def imageWellFormed (bs : List Byte) : Bool := decide (bs.length ≤ Config.maxImage)

end Sys2Proof
end

