-- ==== Sys2Proof/Decode.lean ====
section
/-! DEFINITION. The instruction decoder, the opcode dispatch multiplexer and the encoder
(00_scope.md R11, 30_encoding.md R90 to R103). -/

namespace Sys2Proof

/-- The six operand views of an instruction word (R11, R93, C8). N is also the sub-class. -/
structure Views where
  cls : BitVec 4
  x : RegIdx
  y : RegIdx
  n : BitVec 4
  nn : Byte
  nnn : BitVec 12
  deriving DecidableEq, Repr

/-- The field extraction of R11, the same for every word (R91). -/
def views (w : Word) : Views where
  cls := w.extractLsb' 12 4
  x := (w.extractLsb' 8 4).toFin
  y := (w.extractLsb' 4 4).toFin
  n := w.extractLsb' 0 4
  nn := w.extractLsb' 0 8
  nnn := w.extractLsb' 0 12

/-- Second level of class 0x0: by NN, with X = 0 (R96, R101). -/
def dispatch0 (v : Views) : Option Instr :=
  if v.x = 0 then
    match v.nn.toNat with
    | 0xE0 => some .cls
    | 0xEE => some .ret
    | _ => none
  else none

/-- Second level of class 0x8: by N (R97). -/
def dispatch8 (v : Views) : Option Instr :=
  match v.n.toNat with
  | 0x0 => some (.ldReg v.x v.y)
  | 0x1 => some (.orReg v.x v.y)
  | 0x2 => some (.andReg v.x v.y)
  | 0x3 => some (.xorReg v.x v.y)
  | 0x4 => some (.addReg v.x v.y)
  | 0x5 => some (.sub v.x v.y)
  | 0x6 => some (.shr v.x v.y)
  | 0x7 => some (.subn v.x v.y)
  | 0xE => some (.shl v.x v.y)
  | _ => none

/-- Second level of class 0xE: by the whole NN byte (R98). -/
def dispatchE (v : Views) : Option Instr :=
  match v.nn.toNat with
  | 0x9E => some (.skp v.x)
  | 0xA1 => some (.sknp v.x)
  | _ => none

/-- Second level of class 0xF: by the whole NN byte (R99). -/
def dispatchF (v : Views) : Option Instr :=
  match v.nn.toNat with
  | 0x07 => some (.ldVxDt v.x)
  | 0x0A => some (.ldVxK v.x)
  | 0x15 => some (.ldDtVx v.x)
  | 0x18 => some (.ldStVx v.x)
  | 0x1E => some (.addI v.x)
  | 0x29 => some (.ldF v.x)
  | 0x33 => some (.ldB v.x)
  | 0x55 => some (.ldMemVx v.x)
  | 0x65 => some (.ldVxMem v.x)
  | _ => none

/-- The opcode dispatch multiplexer: by class, then within an overloaded class by sub-class or NN
(R94, R95, R100). `none` is the unknown space of R102. -/
def dispatch (v : Views) : Option Instr :=
  match v.cls.toNat with
  | 0x0 => dispatch0 v
  | 0x1 => some (.jp v.nnn)
  | 0x2 => some (.call v.nnn)
  | 0x3 => some (.seImm v.x v.nn)
  | 0x4 => some (.sneImm v.x v.nn)
  | 0x5 => if v.n = 0 then some (.seReg v.x v.y) else none
  | 0x6 => some (.ldImm v.x v.nn)
  | 0x7 => some (.addImm v.x v.nn)
  | 0x8 => dispatch8 v
  | 0x9 => if v.n = 0 then some (.sneReg v.x v.y) else none
  | 0xA => some (.ldI v.nnn)
  | 0xB => some (.jpV0 v.nnn)
  | 0xC => some (.rnd v.x v.nn)
  | 0xD => some (.drw v.x v.y v.n)
  | 0xE => dispatchE v
  | 0xF => dispatchF v
  | _ => none

/-- The instruction a 16-bit word stands for, or `none` for a word of the unknown space (R101 to R103). -/
def decode (w : Word) : Option Instr := dispatch (views w)

/-- The two ways a byte sequence can fail to be an instruction, by name. -/
inductive DecodeError where
  /-- Not exactly 2 bytes: MalformedInstruction (R93, R221). -/
  | malformed
  /-- A word of the unknown space: UnknownOpcode (R102, R222). -/
  | unknownOpcode (w : Word)
  deriving DecidableEq, Repr

/-- The word of two bytes: big-endian, the byte at the lower address in bits 15 to 8 (R63). -/
def wordOfBytes (hi lo : Byte) : Word := u16 (hi.toNat * 0x100 + lo.toNat)

/-- The two bytes of a word, in the order of their addresses (R63). -/
def bytesOfWord (w : Word) : List Byte := [w.extractLsb' 8 8, w.extractLsb' 0 8]

/-- The decoder on any byte sequence: it refuses by name whatever is not an instruction (R93, R102, C11). -/
def decodeBytes (bs : List Byte) : Except DecodeError Instr :=
  match bs with
  | [hi, lo] =>
    match decode (wordOfBytes hi lo) with
    | some i => .ok i
    | none => .error (.unknownOpcode (wordOfBytes hi lo))
  | _ => .error .malformed

/-- The decoder on a word numbered as spec/opcode_table.json numbers it: laid out in memory order and
given to `decodeBytes`. Bits at and above `nbits` are 0. -/
def decodeTableWord (nbits w : Nat) : Option Instr :=
  if nbits ≤ 16 then
    match decodeBytes (bytesOfWord (u16 (w % 2 ^ nbits))) with
    | .ok i => some i
    | .error _ => none
  else none

/-- A word from its class, X, Y and N nibbles (R91, format FXY and FXYN). -/
def wordXYN (c : BitVec 4) (x y : RegIdx) (n : BitVec 4) : Word :=
  u16 (c.toNat * 0x1000 + x.val * 0x100 + y.val * 0x10 + n.toNat)

/-- A word from its class, X and NN (R91, formats FXNN and FX). -/
def wordXNN (c : BitVec 4) (x : RegIdx) (nn : Byte) : Word :=
  u16 (c.toNat * 0x1000 + x.val * 0x100 + nn.toNat)

/-- A word from its class and NNN (R91, format FA). -/
def wordNNN (c : BitVec 4) (nnn : BitVec 12) : Word := u16 (c.toNat * 0x1000 + nnn.toNat)

/-- The encoder: the word of an instruction, from the match patterns of spec/opcode_table.json. -/
def encode : Instr → Word
  | .cls => 0x00E0
  | .ret => 0x00EE
  | .jp nnn => wordNNN 0x1 nnn
  | .call nnn => wordNNN 0x2 nnn
  | .seImm x nn => wordXNN 0x3 x nn
  | .sneImm x nn => wordXNN 0x4 x nn
  | .seReg x y => wordXYN 0x5 x y 0x0
  | .ldImm x nn => wordXNN 0x6 x nn
  | .addImm x nn => wordXNN 0x7 x nn
  | .ldReg x y => wordXYN 0x8 x y 0x0
  | .orReg x y => wordXYN 0x8 x y 0x1
  | .andReg x y => wordXYN 0x8 x y 0x2
  | .xorReg x y => wordXYN 0x8 x y 0x3
  | .addReg x y => wordXYN 0x8 x y 0x4
  | .sub x y => wordXYN 0x8 x y 0x5
  | .shr x y => wordXYN 0x8 x y 0x6
  | .subn x y => wordXYN 0x8 x y 0x7
  | .shl x y => wordXYN 0x8 x y 0xE
  | .sneReg x y => wordXYN 0x9 x y 0x0
  | .ldI nnn => wordNNN 0xA nnn
  | .jpV0 nnn => wordNNN 0xB nnn
  | .rnd x nn => wordXNN 0xC x nn
  | .drw x y n => wordXYN 0xD x y n
  | .skp x => wordXNN 0xE x 0x9E
  | .sknp x => wordXNN 0xE x 0xA1
  | .ldVxDt x => wordXNN 0xF x 0x07
  | .ldVxK x => wordXNN 0xF x 0x0A
  | .ldDtVx x => wordXNN 0xF x 0x15
  | .ldStVx x => wordXNN 0xF x 0x18
  | .addI x => wordXNN 0xF x 0x1E
  | .ldF x => wordXNN 0xF x 0x29
  | .ldB x => wordXNN 0xF x 0x33
  | .ldMemVx x => wordXNN 0xF x 0x55
  | .ldVxMem x => wordXNN 0xF x 0x65

/-- One hexadecimal digit. -/
def hexDigit (n : Nat) : Char := ['0', '1', '2', '3', '4', '5', '6', '7', '8', '9', 'A', 'B', 'C', 'D', 'E', 'F'].getD n '0'

/-- The `width` low hexadecimal digits of a number. -/
def hexText : Nat → Nat → List Char
  | 0, _ => []
  | width + 1, n => hexText width (n / 16) ++ [hexDigit (n % 16)]

/-- A register as R104 writes it, V0 to VF. -/
def regText (x : RegIdx) : String := "V" ++ String.ofList (hexText 1 x.val)

/-- A byte `nn` as R104 writes it. -/
def nnText (nn : Byte) : String := String.ofList (hexText 2 nn.toNat)

/-- A 12-bit address `nnn` as R104 writes it. -/
def nnnText (nnn : BitVec 12) : String := String.ofList (hexText 3 nnn.toNat)

/-- The assembly spelling of an instruction (R104, K2): a name for reading, with no behaviour resting on it. -/
def assemblyText : Instr → String
  | .cls => "CLS"
  | .ret => "RET"
  | .jp nnn => "JP " ++ nnnText nnn
  | .call nnn => "CALL " ++ nnnText nnn
  | .seImm x nn => "SE " ++ regText x ++ ", " ++ nnText nn
  | .sneImm x nn => "SNE " ++ regText x ++ ", " ++ nnText nn
  | .seReg x y => "SE " ++ regText x ++ ", " ++ regText y
  | .ldImm x nn => "LD " ++ regText x ++ ", " ++ nnText nn
  | .addImm x nn => "ADD " ++ regText x ++ ", " ++ nnText nn
  | .ldReg x y => "LD " ++ regText x ++ ", " ++ regText y
  | .orReg x y => "OR " ++ regText x ++ ", " ++ regText y
  | .andReg x y => "AND " ++ regText x ++ ", " ++ regText y
  | .xorReg x y => "XOR " ++ regText x ++ ", " ++ regText y
  | .addReg x y => "ADD " ++ regText x ++ ", " ++ regText y
  | .sub x y => "SUB " ++ regText x ++ ", " ++ regText y
  | .shr x y => "SHR " ++ regText x ++ ", " ++ regText y
  | .subn x y => "SUBN " ++ regText x ++ ", " ++ regText y
  | .shl x y => "SHL " ++ regText x ++ ", " ++ regText y
  | .sneReg x y => "SNE " ++ regText x ++ ", " ++ regText y
  | .ldI nnn => "LD I, " ++ nnnText nnn
  | .jpV0 nnn => "JP V0, " ++ nnnText nnn
  | .rnd x nn => "RND " ++ regText x ++ ", " ++ nnText nn
  | .drw x y n => "DRW " ++ regText x ++ ", " ++ regText y ++ ", " ++ String.ofList (hexText 1 n.toNat)
  | .skp x => "SKP " ++ regText x
  | .sknp x => "SKNP " ++ regText x
  | .ldVxDt x => "LD " ++ regText x ++ ", DT"
  | .ldVxK x => "LD " ++ regText x ++ ", K"
  | .ldDtVx x => "LD DT, " ++ regText x
  | .ldStVx x => "LD ST, " ++ regText x
  | .addI x => "ADD I, " ++ regText x
  | .ldF x => "LD F, " ++ regText x
  | .ldB x => "LD B, " ++ regText x
  | .ldMemVx x => "LD [I], " ++ regText x
  | .ldVxMem x => "LD " ++ regText x ++ ", [I]"

/-- `SHR Vx` written without Vy assembles with Y = X (R104, D27). -/
def shrShorthand (x : RegIdx) : Instr := .shr x x

/-- `SHL Vx` written without Vy assembles with Y = X (R104, D27). -/
def shlShorthand (x : RegIdx) : Instr := .shl x x

/-- A row of spec/opcode_table.json: its mnemonic, its match and its mask. -/
structure OpcodeRow where
  mnemonic : String
  pattern : Word
  mask : Word
  deriving DecidableEq, Repr

/-- A word matches a row when every bit the row fixes has the fixed value (R101). -/
def OpcodeRow.matchesWord (r : OpcodeRow) (w : Word) : Bool := w &&& r.mask == r.pattern

/-- The row of spec/opcode_table.json an instruction belongs to. -/
def rowOf : Instr → OpcodeRow
  | .cls => ⟨"CLS", 0x00E0, 0xFFFF⟩
  | .ret => ⟨"RET", 0x00EE, 0xFFFF⟩
  | .jp _ => ⟨"JP", 0x1000, 0xF000⟩
  | .call _ => ⟨"CALL", 0x2000, 0xF000⟩
  | .seImm _ _ => ⟨"SE_imm", 0x3000, 0xF000⟩
  | .sneImm _ _ => ⟨"SNE_imm", 0x4000, 0xF000⟩
  | .seReg _ _ => ⟨"SE_reg", 0x5000, 0xF00F⟩
  | .ldImm _ _ => ⟨"LD_imm", 0x6000, 0xF000⟩
  | .addImm _ _ => ⟨"ADD_imm", 0x7000, 0xF000⟩
  | .ldReg _ _ => ⟨"LD_reg", 0x8000, 0xF00F⟩
  | .orReg _ _ => ⟨"OR", 0x8001, 0xF00F⟩
  | .andReg _ _ => ⟨"AND", 0x8002, 0xF00F⟩
  | .xorReg _ _ => ⟨"XOR", 0x8003, 0xF00F⟩
  | .addReg _ _ => ⟨"ADD_reg", 0x8004, 0xF00F⟩
  | .sub _ _ => ⟨"SUB", 0x8005, 0xF00F⟩
  | .shr _ _ => ⟨"SHR", 0x8006, 0xF00F⟩
  | .subn _ _ => ⟨"SUBN", 0x8007, 0xF00F⟩
  | .shl _ _ => ⟨"SHL", 0x800E, 0xF00F⟩
  | .sneReg _ _ => ⟨"SNE_reg", 0x9000, 0xF00F⟩
  | .ldI _ => ⟨"LD_I", 0xA000, 0xF000⟩
  | .jpV0 _ => ⟨"JP_V0", 0xB000, 0xF000⟩
  | .rnd _ _ => ⟨"RND", 0xC000, 0xF000⟩
  | .drw _ _ _ => ⟨"DRW", 0xD000, 0xF000⟩
  | .skp _ => ⟨"SKP", 0xE09E, 0xF0FF⟩
  | .sknp _ => ⟨"SKNP", 0xE0A1, 0xF0FF⟩
  | .ldVxDt _ => ⟨"LD_Vx_DT", 0xF007, 0xF0FF⟩
  | .ldVxK _ => ⟨"LD_Vx_K", 0xF00A, 0xF0FF⟩
  | .ldDtVx _ => ⟨"LD_DT_Vx", 0xF015, 0xF0FF⟩
  | .ldStVx _ => ⟨"LD_ST_Vx", 0xF018, 0xF0FF⟩
  | .addI _ => ⟨"ADD_I", 0xF01E, 0xF0FF⟩
  | .ldF _ => ⟨"LD_F", 0xF029, 0xF0FF⟩
  | .ldB _ => ⟨"LD_B", 0xF033, 0xF0FF⟩
  | .ldMemVx _ => ⟨"LD_mem_Vx", 0xF055, 0xF0FF⟩
  | .ldVxMem _ => ⟨"LD_Vx_mem", 0xF065, 0xF0FF⟩

/-- The opcode table, in the table's order: the row of one instruction of each constructor. -/
def opcodeTable : List OpcodeRow :=
  [rowOf .cls, rowOf .ret, rowOf (.jp 0), rowOf (.call 0), rowOf (.seImm 0 0), rowOf (.sneImm 0 0)] ++
  [rowOf (.seReg 0 0), rowOf (.ldImm 0 0), rowOf (.addImm 0 0), rowOf (.ldReg 0 0)] ++
  [rowOf (.orReg 0 0), rowOf (.andReg 0 0), rowOf (.xorReg 0 0), rowOf (.addReg 0 0)] ++
  [rowOf (.sub 0 0), rowOf (.shr 0 0), rowOf (.subn 0 0), rowOf (.shl 0 0), rowOf (.sneReg 0 0)] ++
  [rowOf (.ldI 0), rowOf (.jpV0 0), rowOf (.rnd 0 0), rowOf (.drw 0 0 0), rowOf (.skp 0)] ++
  [rowOf (.sknp 0), rowOf (.ldVxDt 0), rowOf (.ldVxK 0), rowOf (.ldDtVx 0), rowOf (.ldStVx 0)] ++
  [rowOf (.addI 0), rowOf (.ldF 0), rowOf (.ldB 0), rowOf (.ldMemVx 0), rowOf (.ldVxMem 0)]

end Sys2Proof
end

