-- ==== Sys2Proof/Machine/State.lean ====
section
/-! DEFINITION. The state of the block as plain data (10_state.md), its state after reset, and why a
step can stop. -/

namespace Sys2Proof.Machine

/-- STATUS (R49). -/
inductive Status where
  | running
  | halted
  deriving DecidableEq, Repr

/-- The kind of a memory access, as OutOfRangeAddress records it (R65, R220). -/
inductive AccessKind where
  | fetch
  | read
  | write
  deriving DecidableEq, Repr

/-- FAULT_CAUSE: none, or one of the five exceptions (R49, R220). -/
inductive FaultCause where
  | none
  /-- Reserved: no step of the block raises it (R221, D28). -/
  | malformedInstruction
  | unknownOpcode
  | outOfRangeAddress
  | stackOverflow
  | stackUnderflow
  deriving DecidableEq, Repr

/-- FAULT_INFO (R49, R220). -/
structure FaultInfo where
  pc : Word
  word : Option Word
  addr : Option Nat
  kind : Option AccessKind
  deriving DecidableEq, Repr

/-- FAULT_INFO after reset: all absent, pc = 0 (R49). -/
def FaultInfo.absent : FaultInfo := ⟨0, .none, .none, .none⟩

/-- FB: 32 rows of 64 pixels; bit c of row r is the pixel FB[c][r] (R44). -/
abbrev Display := Vector (BitVec 64) 32

/-- An event on an output port: the flush delivers a copy of the whole grid (R179), the beep (R231). -/
inductive OutEvent where
  | flush (grid : Display)
  | beep
  deriving DecidableEq, Repr

/-- What the input ports present around one engine step: the key and the random byte the step can
sample (R12), and how many ticks fall between this step and the next (R232). -/
structure Inputs where
  key : Option Key
  rand : Byte
  ticks : Nat
  deriving DecidableEq, Repr

/-- M in canonical form: (address, byte) pairs with strictly rising addresses, none equal to what an
unlisted address reads as (`Config.initialByte`). -/
abbrev Memory := List Host.Cell

/-- The state of the block: the tuple of 10_state.md and four fields of the model's own. -/
structure State where
  /-- V0 to VF (R30). -/
  v : Vector Byte 16
  /-- The index register I (R38). -/
  i : Word
  /-- The program counter PC (R34). -/
  pc : Word
  /-- The stack pointer SP, 0 to 16 (R40). -/
  sp : Fin 17
  /-- The stack slots S[0] to S[15] (R39). -/
  stack : Vector Word 16
  /-- The delay timer DT (R41). -/
  dt : Byte
  /-- The sound timer ST (R42). -/
  st : Byte
  /-- The memory M (R45). -/
  mem : Memory
  /-- The display buffer FB (R44). -/
  fb : Display
  /-- STATUS (R49). -/
  status : Status
  /-- FAULT_CAUSE (R49). -/
  cause : FaultCause
  /-- FAULT_INFO (R49). -/
  info : FaultInfo
  /-- The MODEL'S OWN: the parameter FONT_DIGIT_POLICY the block is configured with (R8, R196). Power-on
  sets it, and nothing else changes it (log entry 8). -/
  fontPolicy : FontDigitPolicy
  /-- The MODEL'S OWN: what the ports will present at the coming steps, oldest first. Past its end
  every sample is a free value of `Config` (log entry 2). -/
  inputs : List Inputs
  /-- The MODEL'S OWN: the number of steps so far, the argument of the free values (log entry 2). -/
  clock : Nat
  /-- The MODEL'S OWN: the output events so far, newest first (log entry 4). -/
  outputs : List OutEvent
  deriving DecidableEq, Repr

/-- Why a step could stop with a fault: there is no reason. Every exception of the spec halts the
block, which is a NEXT state with STATUS = Halted (R224; log entry 1), so this type has no
constructor and no meaning can answer with a fault. -/
inductive Fault where
  deriving DecidableEq, Repr

/-- Why a step could be refused. -/
inductive Refusal where
  /-- Raised only by an arm of `exec` whose instruction has no meaning yet; safe. No arm raises it. -/
  | notModelled (mnemonic : String)
  deriving DecidableEq, Repr

/-- RESET_STATE (R55, R251): what a reset gives the registers; its defaults are the table of R55. -/
structure ResetState where
  v : Vector Byte 16 := Vector.replicate 16 0
  i : Word := 0
  pc : Word := 0x0200
  sp : Fin 17 := 0
  stack : Vector Word 16 := Vector.replicate 16 0
  dt : Byte := 0
  st : Byte := 0
  deriving DecidableEq, Repr

/-- What power-on takes: the parameters FONT_TABLE, MEM_FILL and FONT_DIGIT_POLICY and a RESET_STATE
(R8, R196, R250). -/
structure PowerOnParams where
  fontTable : Vector Byte 80
  memFill : Byte
  fontDigitPolicy : FontDigitPolicy
  resetState : ResetState
  deriving DecidableEq, Repr

/-- The host's ways to act on the block (R12, R253); a step carries its samples of key and rand. -/
inductive PortEvent where
  | powerOn (p : PowerOnParams)
  | reset (r : ResetState)
  | load (image : List Byte)
  | step (key : Option Key) (rand : Byte)
  | tick
  deriving DecidableEq, Repr

/-- The diagnostic dump, in the record order of R241. -/
structure Dump where
  pc : Word
  sp : Nat
  dt : Byte
  st : Byte
  i : Word
  stack : Vector Word 16
  v : Vector Byte 16
  status : Status
  cause : FaultCause
  info : FaultInfo
  deriving DecidableEq, Repr

/-- The block right after power-on with the default RESET_STATE, FONT_TABLE, MEM_FILL and
FONT_DIGIT_POLICY (R55, R250): memory lists nothing, since an unlisted address reads as its initial content.
UNSAFE where R55's defaults are the spec's own choice; see log entry 5. -/
def State.reset : State where
  v := Vector.replicate 16 0
  i := 0
  pc := 0x0200
  sp := 0
  stack := Vector.replicate 16 0
  dt := 0
  st := 0
  mem := []
  fb := Vector.replicate 32 0
  status := .running
  cause := .none
  info := FaultInfo.absent
  fontPolicy := Config.fontDigitPolicy
  inputs := []
  clock := 0
  outputs := []

end Sys2Proof.Machine
end

