-- ==== Sys2Proof/Machine/Ops.lean ====
section
/-! DEFINITION. The named operations over memory, registers, stack and output ports, the range check,
and the one shared operation that takes an exception (00_scope.md R10, 20_memory.md, 60_exceptions.md). -/

namespace Sys2Proof.Machine

/-! Memory -/

/-- The canonical form: addresses strictly rising and below 0x1000, no entry equal to what an unlisted
address reads as. -/
def Memory.wf : Memory → Bool
  | [] => true
  | (a, b) :: rest =>
    decide (a < Config.memSize) && (b != Config.initialByte a) && rest.all (fun c => decide (a < c.1)) &&
      Memory.wf rest

/-- `MemRead(addr, 1)` (R10, R62). The instructions reach it only behind `State.checked` (R65). -/
def Memory.read : Memory → Nat → Byte
  | [], a => Config.initialByte a
  | (k, b) :: rest, a => if a = k then b else Memory.read rest a

/-- `MemWrite(addr, 1, v)` (R10, R62): changes exactly the byte addressed (R70) and keeps the
canonical form. -/
def Memory.write : Memory → Nat → Byte → Memory
  | [], a, b => if b = Config.initialByte a then [] else [(a, b)]
  | (k, c) :: rest, a, b =>
    if a < k then (if b = Config.initialByte a then (k, c) :: rest else (a, b) :: (k, c) :: rest)
    else if a = k then (if b = Config.initialByte a then rest else (a, b) :: rest)
    else (k, c) :: Memory.write rest a b

/-- Bytes written at consecutive ascending addresses, without wrap (R62). -/
def Memory.writeBytes (m : Memory) (base : Nat) : List Byte → Memory
  | [] => m
  | b :: bs => Memory.writeBytes (m.write base b) (base + 1) bs

/-- The n bytes at consecutive ascending addresses from base, without wrap (R62). -/
def Memory.readBytes (m : Memory) (base n : Nat) : List Byte :=
  (List.range n).map fun k => m.read (base + k)

/-- `InRange(a, n)` of R10, for n ≥ 1. -/
def InRange (a n : Nat) : Bool := decide (a + n - 1 ≤ 0xFFF)

/-! Registers -/

/-- `V[x]` (R10, R30). -/
def State.reg (s : State) (x : RegIdx) : Byte := s.v[x.val]

/-- `V[x] <- b` (R10, R30). -/
def State.setReg (s : State) (x : RegIdx) (b : Byte) : State := { s with v := s.v.set x.val b }

/-- `V[F] <- flag ? 0x01 : 0x00` (R32). -/
def State.setFlag (s : State) (flag : Bool) : State := s.setReg 0xF (if flag then 0x01 else 0x00)

/-- The whole register file written at once (FX65, R199). -/
def State.setRegs (s : State) (v : Vector Byte 16) : State := { s with v := v }

/-- `PC <- p`. -/
def State.setPc (s : State) (p : Word) : State := { s with pc := p }

/-- `PC <- u16(PC0 + 2)`: the default advance (R35). -/
def State.advance (s : State) : State := s.setPc (s.pc + 2)

/-- A conditional skip's move of PC (R35, R140). -/
def State.skipIf (s : State) (cond : Bool) : State := s.setPc (if cond then s.pc + 4 else s.pc + 2)

/-- `I <- a`. -/
def State.setI (s : State) (a : Word) : State := { s with i := a }

/-- `DT <- b`: one atomic access to the timer byte (R71). -/
def State.setDt (s : State) (b : Byte) : State := { s with dt := b }

/-- `ST <- b`: one atomic access to the timer byte (R71). -/
def State.setSt (s : State) (b : Byte) : State := { s with st := b }

/-- `M <- m`. -/
def State.setMem (s : State) (m : Memory) : State := { s with mem := m }

/-- `FB <- d`. -/
def State.setFb (s : State) (d : Display) : State := { s with fb := d }

/-- The block is configured with a FONT_DIGIT_POLICY (R8, R196; log entry 8). -/
def State.setFontPolicy (s : State) (p : FontDigitPolicy) : State := { s with fontPolicy := p }

/-- `emit e` (R10): one event on an output port. -/
def State.emit (s : State) (e : OutEvent) : State := { s with outputs := e :: s.outputs }

/-- `emit Flush(FB)`: a copy of the whole grid as it stands (R179). -/
def State.flush (s : State) : State := s.emit (.flush s.fb)

/-! Stack -/

/-- `S[k]` (R10, R39). -/
def State.slot (s : State) (k : Fin 16) : Word := s.stack[k.val]

/-- Push, when SP ≤ 15: `S[SP] <- a; SP <- SP + 1` (R40). -/
def State.push (s : State) (h : s.sp.val < 16) (a : Word) : State :=
  { s with stack := s.stack.set s.sp.val a h, sp := ⟨s.sp.val + 1, by omega⟩ }

/-- What a pop reads, when SP ≥ 1: `S[SP - 1]` (R40). -/
def State.top (s : State) (h : 0 < s.sp.val) : Word := s.stack[s.sp.val - 1]'(by omega)

/-- Pop, when SP ≥ 1: `SP <- SP - 1`, the slot keeps its value (R40, D25). -/
def State.drop (s : State) (_h : 0 < s.sp.val) : State :=
  { s with sp := ⟨s.sp.val - 1, by omega⟩ }

/-! Exceptions -/

/-- `raise E(f)` (R224): STATUS, FAULT_CAUSE and FAULT_INFO are written and NOTHING else changes; PC
keeps PC0, and a meaning that raises has staged no write and no event. There is no return from an
exception but reset (R227). -/
def State.raise (s : State) (c : FaultCause) (f : FaultInfo) : State :=
  { s with status := .halted, cause := c, info := f }

/-- `raise MalformedInstruction` (R220, R221): records pc. -/
def State.raiseMalformed (s : State) : State := s.raise .malformedInstruction ⟨s.pc, none, none, none⟩

/-- `raise UnknownOpcode(pc, word)` (R220, R222). -/
def State.raiseUnknown (s : State) (w : Word) : State := s.raise .unknownOpcode ⟨s.pc, some w, none, none⟩

/-- `raise OutOfRangeAddress(pc, word, addr, kind)` with addr = max(base, 0x1000), the lowest
out-of-range address of the access; the word is absent for a fetch (R65, R220). -/
def State.raiseOutOfRange (s : State) (w : Option Word) (base : Nat) (k : AccessKind) : State :=
  s.raise .outOfRangeAddress ⟨s.pc, w, some (max base 0x1000), some k⟩

/-- `raise StackOverflow(pc, word)` (R220, R225). -/
def State.raiseOverflow (s : State) (w : Word) : State := s.raise .stackOverflow ⟨s.pc, some w, none, none⟩

/-- `raise StackUnderflow(pc, word)` (R220, R225). -/
def State.raiseUnderflow (s : State) (w : Word) : State := s.raise .stackUnderflow ⟨s.pc, some w, none, none⟩

/-- `Check(base, n, kind)` before any change (R65): `t` where the whole range is in memory, else the
exception raised in the state `s` the instruction started from. -/
def State.checked (s : State) (w : Option Word) (base n : Nat) (k : AccessKind) (t : State) : State :=
  if InRange base n then t else s.raiseOutOfRange w base k

/-! Input ports -/

/-- What the ports present at this step: the oldest listed input, or free values (R12, R237, R238;
log entry 2). -/
def State.now (s : State) : Inputs :=
  match s.inputs with
  | inp :: _ => inp
  | [] => ⟨Config.freeKey s.clock, Config.freeRand s.clock, Config.freeTicks s.clock⟩

/-- The state with `inp` presented at the next step, before whatever was listed (log entry 2). -/
def State.present (s : State) (inp : Inputs) : State := { s with inputs := inp :: s.inputs }

/-- The ports move on to the next step's samples (log entry 2). -/
def State.nextInputs (s : State) : State := { s with inputs := s.inputs.tail, clock := s.clock + 1 }

/-! Placing an instruction for the host (log entry 9) -/

/-- The state with the word stored big-endian at PC (R63); where PC leaves no room for a word, PC is
first set to PROGRAM_BASE; a halted block is set Running, its fault record cleared as by reset. -/
def State.placeWord (s : State) (w : Word) : State :=
  let p := if InRange s.pc.toNat 2 then s.pc else u16 Config.programBase
  { s with pc := p, mem := s.mem.writeBytes p.toNat (bytesOfWord w), status := .running, cause := .none,
           info := FaultInfo.absent }

end Sys2Proof.Machine
end

