-- ==== Sys2Proof/Machine/Flags.lean ====
section
/-! DEFINITION. The flag computations of 10_state.md R32 and 43_register_alu.md R150, R151, each from
the pre-operation values, and the common form of a flag-writing register operation. -/

namespace Sys2Proof.Machine

/-- Carry of an addition: the unsigned sum exceeds 255 (R151, R158). -/
def carryFlag (x y : Byte) : Bool := decide (255 < x.toNat + y.toNat)

/-- NOT-borrow of x - y: 1 iff x ≥ y (R151, R159, R161). -/
def noBorrowFlag (x y : Byte) : Bool := decide (y.toNat ≤ x.toNat)

/-- The bit a right shift drops: bit 0 (R160). -/
def lsbFlag (x : Byte) : Bool := x.getLsbD 0

/-- The bit a left shift drops: bit 7 (R162). -/
def msbFlag (x : Byte) : Bool := x.getLsbD 7

/-- FX1E's flag: the unsigned sum exceeds 0xFFF (R194). -/
def indexFlag (i : Word) (x : Byte) : Bool := decide (0xFFF < i.toNat + x.toNat)

/-- `V[X] <- r; PC <- u16(PC0 + 2)`: a register result without a flag (R150). -/
def State.result (s : State) (x : RegIdx) (r : Byte) : State := (s.setReg x r).advance

/-- `V[X] <- r; V[F] <- flag; PC <- u16(PC0 + 2)`: the flag is written last, so it overwrites the
result when X = 0xF (R32, R150, C1). -/
def State.resultFlag (s : State) (x : RegIdx) (r : Byte) (flag : Bool) : State :=
  ((s.setReg x r).setFlag flag).advance

end Sys2Proof.Machine
end

