-- ==== Sys2Proof/Machine/Alu.lean ====
section
/-! DEFINITION. Register set and ALU: 6XNN, 7XNN, 8XY0 to 8XYE (43_register_alu.md). Operands are read
from the state at the start of the step (R150). -/

namespace Sys2Proof.Machine

/-- 6XNN (R152). -/
def execLdImm (x : RegIdx) (nn : Byte) (s : State) : Host.Outcome State Fault Refusal := .next (s.result x nn)

/-- 7XNN (R153): wraps, and VF is not written as a flag (C2). -/
def execAddImm (x : RegIdx) (nn : Byte) (s : State) : Host.Outcome State Fault Refusal :=
  .next (s.result x (s.reg x + nn))

/-- 8XY0 (R154). -/
def execLdReg (x y : RegIdx) (s : State) : Host.Outcome State Fault Refusal := .next (s.result x (s.reg y))

/-- 8XY1 (R155). -/
def execOr (x y : RegIdx) (s : State) : Host.Outcome State Fault Refusal :=
  .next (s.result x (s.reg x ||| s.reg y))

/-- 8XY2 (R156). -/
def execAnd (x y : RegIdx) (s : State) : Host.Outcome State Fault Refusal :=
  .next (s.result x (s.reg x &&& s.reg y))

/-- 8XY3 (R157). -/
def execXor (x y : RegIdx) (s : State) : Host.Outcome State Fault Refusal :=
  .next (s.result x (s.reg x ^^^ s.reg y))

/-- 8XY4 (R158). -/
def execAddReg (x y : RegIdx) (s : State) : Host.Outcome State Fault Refusal :=
  .next (s.resultFlag x (s.reg x + s.reg y) (carryFlag (s.reg x) (s.reg y)))

/-- 8XY5 (R159). -/
def execSub (x y : RegIdx) (s : State) : Host.Outcome State Fault Refusal :=
  .next (s.resultFlag x (s.reg x - s.reg y) (noBorrowFlag (s.reg x) (s.reg y)))

/-- 8XY6 (R160): shifts V[X]; V[Y] is not read. -/
def execShr (x _y : RegIdx) (s : State) : Host.Outcome State Fault Refusal :=
  .next (s.resultFlag x (s.reg x >>> 1) (lsbFlag (s.reg x)))

/-- 8XY7 (R161). -/
def execSubn (x y : RegIdx) (s : State) : Host.Outcome State Fault Refusal :=
  .next (s.resultFlag x (s.reg y - s.reg x) (noBorrowFlag (s.reg y) (s.reg x)))

/-- 8XYE (R162): shifts V[X]; V[Y] is not read. -/
def execShl (x _y : RegIdx) (s : State) : Host.Outcome State Fault Refusal :=
  .next (s.resultFlag x (s.reg x <<< 1) (msbFlag (s.reg x)))

end Sys2Proof.Machine
end

