-- ==== Sys2Proof/Machine/Sprite.lean ====
section
/-! DEFINITION. The display buffer and the sprite XOR-draw and collision engine
(10_state.md R44, 45_draw.md R175 to R179). -/

namespace Sys2Proof.Machine

/-- All pixels 0 (R120, R250). -/
def Display.clear : Display := Vector.replicate 32 0

/-- FB[c][r] (R44). -/
def Display.pixel (d : Display) (c : Fin 64) (r : Fin 32) : Bool := d[r.val].getLsbD c.val

/-- `FB[c][r] <- FB[c][r] XOR p` (R176). -/
def Display.xorPixel (d : Display) (c : Fin 64) (r : Fin 32) (p : Bool) : Display :=
  d.set r.val (d[r.val] ^^^ ((if p then 1 else 0 : BitVec 64) <<< c.val))

/-- A grid being drawn on, and whether a collision has happened. -/
abbrev Drawing := Display × Bool

/-- Bit `k` of DrawByte(x, y, b), counted from the most significant (R176, R177): a collision is a
sprite bit of 1 on a pixel that is already 1. -/
def drawBit (x y : Nat) (b : Byte) (d : Drawing) (k : Nat) : Drawing :=
  let p := b.getLsbD (7 - k)
  let c := Fin.ofNat 64 (x + k)
  let r := Fin.ofNat 32 y
  (d.1.xorPixel c r p, d.2 || (p && d.1.pixel c r))

/-- DrawByte(x, y, b) (R176): the eight bits of one row, collisions accumulated. -/
def drawByte (x y : Nat) (b : Byte) (d : Drawing) : Drawing := (List.range 8).foldl (drawBit x y b) d

/-- The rows of DXYN's loop (R175): row after row at y0, y0 + 1, …, collisions accumulated. -/
def drawRows (x : Nat) : Nat → List Byte → Drawing → Drawing
  | _, [], d => d
  | y, b :: bs, d => drawRows x (y + 1) bs (drawByte x y b d)

/-- What a completed DXYN does with its sprite bytes (R175): draw, then VF, then one flush, then PC. -/
def State.drawn (s : State) (x y : Nat) (rows : List Byte) : State :=
  let d := drawRows x y rows (s.fb, false)
  (((s.setFb d.1).setFlag d.2).flush).advance

end Sys2Proof.Machine
end

