-- ==== Sys2Proof/Machine/ClearReturn.lean ====
section
/-! DEFINITION. Clear and return: 00E0, 00EE (40_clear_and_return.md). -/

namespace Sys2Proof.Machine

/-- 00E0 (R120): FB all 0, then one flush, PC + 2. -/
def execCls (s : State) : Host.Outcome State Fault Refusal := .next (s.setFb Display.clear).flush.advance

/-- 00EE (R121): PC takes the popped value itself; StackUnderflow when SP = 0. -/
def execRet (s : State) : Host.Outcome State Fault Refusal :=
  .next (if h : 0 < s.sp.val then (s.drop h).setPc (s.top h) else s.raiseUnderflow (encode .ret))

end Sys2Proof.Machine
end

