-- ==== Sys2Proof/Machine/Draw.lean ====
section
/-! DEFINITION. Sprite draw: DXYN (45_draw.md). -/

namespace Sys2Proof.Machine

/-- DXYN (R175): the N sprite bytes at I, checked first when N ≥ 1; with N = 0 nothing is read or drawn,
VF is 0 and one flush is emitted (D31). -/
def execDrw (x y : RegIdx) (n : BitVec 4) (s : State) : Host.Outcome State Fault Refusal :=
  let t := s.drawn (s.reg x).toNat (s.reg y).toNat (s.mem.readBytes s.i.toNat n.toNat)
  .next (if n = 0 then t else s.checked (some (encode (.drw x y n))) s.i.toNat n.toNat .read t)

end Sys2Proof.Machine
end

