-- ==== Sys2Proof/Machine/Operands.lean ====
section
/-! DEFINITION. The operand forms: register slices, the key and random samples, the glyph address and
the decimal digits (44_random.md, 46_timer_index_memory.md, 47_wait_for_key.md, 60_exceptions.md). -/

namespace Sys2Proof.Machine

/-- `Key()` (R10, R237): the key presented at this step, or `none` for NONE. -/
def State.sampleKey (s : State) : Option Key := s.now.key

/-- `Rand()` (R10, R238): the random byte presented at this step. -/
def State.sampleRand (s : State) : Byte := s.now.rand

/-- The condition of EX9E: a key is pressed and equals the value (R146). A value above 0xF never matches. -/
def keyMatches (k : Option Key) (x : Byte) : Bool :=
  match k with
  | some key => x.toNat == key.val
  | none => false

/-- A key as a byte, 0x00 to 0x0F (R210). -/
def keyByte (k : Key) : Byte := u8 k.val

/-- `zext_16(NNN)` (R92). -/
def addr16 (nnn : BitVec 12) : Word := nnn.setWidth 16

/-- V[0] to V[x] in order (FX55, R198). -/
def State.regSlice (s : State) (x : RegIdx) : List Byte := s.v.toList.take (x.val + 1)

/-- The register file with `V[k] <- MemRead(base + k, 1)` for k in 0..x (FX65, R199). -/
def State.loadedRegs (s : State) (x : RegIdx) (base : Nat) : Vector Byte 16 :=
  Vector.ofFn fun k : Fin 16 => if k.val ≤ x.val then s.mem.read (base + k.val) else s.v[k.val]

/-- The hundreds, tens and ones of a byte (FX33, R197). -/
def bcdDigits (x : Byte) : List Byte := [u8 (x.toNat / 100), u8 (x.toNat / 10 % 10), u8 (x.toNat % 10)]

/-- GlyphAddr (R196) under a FONT_DIGIT_POLICY; `n` numbers the draw of the policy `any`. -/
def glyphAddr (p : FontDigitPolicy) (n : Nat) (x : Byte) : Word :=
  if x.toNat ≤ 0xF then u16 (5 * x.toNat)
  else
    match p with
    | .linear => u16 (x.toNat * 5)
    | .lowNibble => u16 (x.toNat % 16 * 5)
    | .any => Config.freeGlyphAddr n

end Sys2Proof.Machine
end

