-- ==== Sys2Proof/Machine/Index.lean ====
section
/-! DEFINITION. The index register: ANNN, FX1E, FX29 (46_timer_index_memory.md). -/

namespace Sys2Proof.Machine

/-- ANNN (R190; log entry 12). -/
def execLdI (nnn : BitVec 12) (s : State) : Host.Outcome State Fault Refusal :=
  .next (s.setI (addr16 nnn)).advance

/-- FX1E (R194): the 16-bit sum, then the flag last. -/
def execAddI (x : RegIdx) (s : State) : Host.Outcome State Fault Refusal :=
  .next ((s.setI (s.i + (s.reg x).setWidth 16)).setFlag (indexFlag s.i (s.reg x))).advance

/-- FX29 (R195, R196) under the FONT_DIGIT_POLICY the block is configured with; under `any` each step has
a draw of its own (log entry 8). -/
def execLdF (x : RegIdx) (s : State) : Host.Outcome State Fault Refusal :=
  .next (s.setI (glyphAddr s.fontPolicy s.clock (s.reg x))).advance

end Sys2Proof.Machine
end

