-- ==== Sys2Proof/Machine/Jumps.lean ====
section
/-! DEFINITION. Jumps and calls: 1NNN, 2NNN, BNNN (41_jumps.md). A target is not checked at the jump. -/

namespace Sys2Proof.Machine

/-- 1NNN (R130). -/
def execJp (nnn : BitVec 12) (s : State) : Host.Outcome State Fault Refusal := .next (s.setPc (addr16 nnn))

/-- 2NNN (R131): pushes PC0 + 2; StackOverflow when SP = 16. -/
def execCall (nnn : BitVec 12) (s : State) : Host.Outcome State Fault Refusal :=
  .next (if h : s.sp.val < 16 then (s.push h (s.pc + 2)).setPc (addr16 nnn)
         else s.raiseOverflow (encode (.call nnn)))

/-- BNNN (R132): NNN + V0, not masked to 12 bits. -/
def execJpV0 (nnn : BitVec 12) (s : State) : Host.Outcome State Fault Refusal :=
  .next (s.setPc (addr16 nnn + (s.reg 0).setWidth 16))

end Sys2Proof.Machine
end

