-- ==== Sys2Proof/Machine/MemoryBlock.lean ====
section
/-! DEFINITION. Memory-block operations: FX33, FX55, FX65 (46_timer_index_memory.md). Each checks its
whole range before its first write (R65); I is not changed (D14). -/

namespace Sys2Proof.Machine

/-- FX33 (R197): the three decimal digits at I, I + 1, I + 2. -/
def execLdB (x : RegIdx) (s : State) : Host.Outcome State Fault Refusal :=
  .next (s.checked (some (encode (.ldB x))) s.i.toNat 3 .write
    (s.setMem (s.mem.writeBytes s.i.toNat (bcdDigits (s.reg x)))).advance)

/-- FX55 (R198): V0 to VX at I onward. -/
def execLdMemVx (x : RegIdx) (s : State) : Host.Outcome State Fault Refusal :=
  .next (s.checked (some (encode (.ldMemVx x))) s.i.toNat (x.val + 1) .write
    (s.setMem (s.mem.writeBytes s.i.toNat (s.regSlice x))).advance)

/-- FX65 (R199): V0 to VX from I onward; VF is loaded as data when X = 0xF. -/
def execLdVxMem (x : RegIdx) (s : State) : Host.Outcome State Fault Refusal :=
  .next (s.checked (some (encode (.ldVxMem x))) s.i.toNat (x.val + 1) .read
    (s.setRegs (s.loadedRegs x s.i.toNat)).advance)

end Sys2Proof.Machine
end

