-- ==== Sys2Proof/Machine/Random.lean ====
section
/-! DEFINITION. Random: CXNN (44_random.md). -/

namespace Sys2Proof.Machine

/-- CXNN (R170): one fresh draw, masked by NN. -/
def execRnd (x : RegIdx) (nn : Byte) (s : State) : Host.Outcome State Fault Refusal :=
  .next (s.result x (s.sampleRand &&& nn))

end Sys2Proof.Machine
end

