-- ==== Sys2Proof/Machine/Skips.lean ====
section
/-! DEFINITION. Conditional skips: 3XNN, 4XNN, 5XY0, 9XY0, EX9E, EXA1 (42_skips.md). The conditions are
the spec's, supplied from general knowledge (R141, K3, K4; log entry 12). -/

namespace Sys2Proof.Machine

/-- 3XNN (R142). -/
def execSeImm (x : RegIdx) (nn : Byte) (s : State) : Host.Outcome State Fault Refusal :=
  .next (s.skipIf (s.reg x == nn))

/-- 4XNN (R143). -/
def execSneImm (x : RegIdx) (nn : Byte) (s : State) : Host.Outcome State Fault Refusal :=
  .next (s.skipIf (s.reg x != nn))

/-- 5XY0 (R144). -/
def execSeReg (x y : RegIdx) (s : State) : Host.Outcome State Fault Refusal :=
  .next (s.skipIf (s.reg x == s.reg y))

/-- 9XY0 (R145). -/
def execSneReg (x y : RegIdx) (s : State) : Host.Outcome State Fault Refusal :=
  .next (s.skipIf (s.reg x != s.reg y))

/-- EX9E (R146): one key sample. -/
def execSkp (x : RegIdx) (s : State) : Host.Outcome State Fault Refusal :=
  .next (s.skipIf (keyMatches s.sampleKey (s.reg x)))

/-- EXA1 (R147): one key sample; NONE skips. -/
def execSknp (x : RegIdx) (s : State) : Host.Outcome State Fault Refusal :=
  .next (s.skipIf (!keyMatches s.sampleKey (s.reg x)))

end Sys2Proof.Machine
end

