-- ==== Sys2Proof/Machine/Timers.lean ====
section
/-! DEFINITION. The timer instructions: FX07, FX15, FX18 (46_timer_index_memory.md). -/

namespace Sys2Proof.Machine

/-- FX07 (R191). -/
def execLdVxDt (x : RegIdx) (s : State) : Host.Outcome State Fault Refusal := .next (s.result x s.dt)

/-- FX15 (R192). -/
def execLdDtVx (x : RegIdx) (s : State) : Host.Outcome State Fault Refusal := .next (s.setDt (s.reg x)).advance

/-- FX18 (R193): never beeps, whatever is written. -/
def execLdStVx (x : RegIdx) (s : State) : Host.Outcome State Fault Refusal := .next (s.setSt (s.reg x)).advance

end Sys2Proof.Machine
end

