-- ==== Sys2Proof/Machine/WaitKey.lean ====
section
/-! DEFINITION. Wait for key: FX0A (47_wait_for_key.md). -/

namespace Sys2Proof.Machine

/-- FX0A (R210): with no key presented it holds, changing nothing; else V[X] takes the key. -/
def execLdVxK (x : RegIdx) (s : State) : Host.Outcome State Fault Refusal :=
  .next (match s.sampleKey with
    | none => s
    | some k => s.result x (keyByte k))

end Sys2Proof.Machine
end

