-- ==== Sys2Proof/Machine/Ticker.lean ====
section
/-! DEFINITION. The timer ticker (60_exceptions.md R230 to R233). -/

namespace Sys2Proof.Machine

/-- A timer's decrement, clamped at 0 (R41, R230). -/
def countDown (t : Byte) : Byte := if t = 0 then 0 else t - 1

/-- One tick (R230): DT and ST counted down in one atomic step, and a beep exactly when ST's decrement
takes it to 0 (R231). It runs whatever STATUS is (R233). -/
def State.tick (s : State) : State :=
  let t := (s.setDt (countDown s.dt)).setSt (countDown s.st)
  if s.st ≠ 0 ∧ t.st = 0 then t.emit .beep else t

/-- `n` ticks in a row. -/
def State.ticks : Nat → State → State
  | 0, s => s
  | n + 1, s => State.ticks n s.tick

/-- The ticks that fall between two engine steps (R232). Ticks on two stopped timers change nothing, so
then the number is not looked at; `State.runTicks_eq_ticks` says it is `State.ticks`. -/
def State.runTicks (n : Nat) (s : State) : State := if s.dt = 0 ∧ s.st = 0 then s else State.ticks n s

end Sys2Proof.Machine
end

