-- ==== Sys2Proof/Machine/Cycle.lean ====
section
/-! DEFINITION. The instruction cycle (30_encoding.md R106 to R108) and what follows it before the next. -/

namespace Sys2Proof.Machine

/-- The bytes at PC and PC + 1 (R63, R107). -/
def State.fetchBytes (s : State) : List Byte := s.mem.readBytes s.pc.toNat 2

/-- The word at PC, big-endian (R63). -/
def State.fetchWord (s : State) : Word :=
  wordOfBytes (s.mem.read s.pc.toNat) (s.mem.read (s.pc.toNat + 1))

/-- Decode, dispatch and execute a sequence of fetched bytes (R107, R222); a sequence that is not 2 bytes
raises MalformedInstruction, which no fetch of the block delivers (R221). -/
def State.issue (s : State) (bs : List Byte) : Host.Outcome State Fault Refusal :=
  match decodeBytes bs with
  | .ok i => exec i s
  | .error (.unknownOpcode w) => .next (s.raiseUnknown w)
  | .error .malformed => .next s.raiseMalformed

/-- One engine step, `Step()` of R107: nothing while Halted (R106); the fetch's range check comes first
(R226), then the decode, then the instruction. -/
def engineStep (s : State) : Host.Outcome State Fault Refusal :=
  match s.status with
  | .halted => .next s
  | .running =>
    if InRange s.pc.toNat 2 then s.issue s.fetchBytes
    else .next (s.raiseOutOfRange none s.pc.toNat .fetch)

/-- What follows an engine step before the next: the ticks that fall between the two (R232, R233), and
the ports move on to the next samples (log entries 2 and 3). -/
def State.settle (s : State) (ticks : Nat) : State := (s.runTicks ticks).nextInputs

/-- An engine step and what follows it. -/
def cycle (s : State) : Host.Outcome State Fault Refusal :=
  match engineStep s with
  | .next t => .next (t.settle s.now.ticks)
  | .fault r => .fault r
  | .refused r => .refused r

end Sys2Proof.Machine
end

