-- ==== Sys2Proof/Machine/Step.lean ====
section
/-! DEFINITION. One step of the block, and the placing of an instruction where the next step fetches it. -/

namespace Sys2Proof.Machine

/-- One step: an engine step (R107), then the ticks that fall before the next one (R232). -/
def step (s : State) : Host.Outcome State Fault Refusal := cycle s

/-- The state with the instruction whose bits are `w` stored where the next step fetches (log entry 9). -/
def State.withFetchWord (s : State) (nbits w : Nat) : State := s.placeWord (u16 (w % 2 ^ nbits))

end Sys2Proof.Machine
end

