-- ==== Sys2Proof/Machine/Ports.lean ====
section
/-! DEFINITION. The host's ports (00_scope.md R12, 70_reset_and_hazards.md R250 to R254): power-on, reset,
load, status, dump, can_proceed, and the block driven by any sequence of port events. -/

namespace Sys2Proof.Machine

/-- A reset with a RESET_STATE (R251): registers, stack, timers and fault state; M and FB keep their
contents, and no event is emitted. -/
def State.applyReset (s : State) (r : ResetState) : State :=
  { s with v := r.v, i := r.i, pc := r.pc, sp := r.sp, stack := r.stack, dt := r.dt, st := r.st,
           status := .running, cause := .none, info := FaultInfo.absent }

/-- The content of every byte of memory after construction (R66, R67, R250). -/
def constructedMemory (p : PowerOnParams) : Memory :=
  Memory.writeBytes [] 0 (p.fontTable.toList ++ List.replicate (Config.memSize - 80) p.memFill)

/-- Power-on (R250): memory and display built, then the reset; no event is emitted. The construction also
fixes the block's FONT_DIGIT_POLICY (R8, R196). -/
def State.powerOn (s : State) (p : PowerOnParams) : State :=
  (((s.setMem (constructedMemory p)).setFb Display.clear).setFontPolicy p.fontDigitPolicy).applyReset p.resetState

/-- The default parameters of R8 and R55. -/
def PowerOnParams.default : PowerOnParams where
  fontTable := ⟨Config.fontTable.toArray, by decide⟩
  memFill := Config.memFill
  fontDigitPolicy := Config.fontDigitPolicy
  resetState := {}

/-- Loading a program image at 0x200 (R69): `none` where the image is too long and the load is rejected
whole. The host loads only while no step is issued (R252, D36); the operation itself is total. -/
def State.load (s : State) (image : List Byte) : Option State :=
  if imageWellFormed image then some (s.setMem (s.mem.writeBytes Config.programBase image)) else none

/-- The `status` port (R12, R49): STATUS, the cause code and the fault record. -/
def State.statusPort (s : State) : Status × FaultCause × FaultInfo := (s.status, s.cause, s.info)

/-- The cause codes of R220; 0 is none (R49). -/
def FaultCause.code : FaultCause → Nat
  | .none => 0
  | .malformedInstruction => 1
  | .unknownOpcode => 2
  | .outOfRangeAddress => 3
  | .stackOverflow => 4
  | .stackUnderflow => 5

/-- The diagnostic dump (R241): a snapshot that changes no state. -/
def State.dump (s : State) : Dump :=
  ⟨s.pc, s.sp.val, s.dt, s.st, s.i, s.stack, s.v, s.status, s.cause, s.info⟩

/-- The word matches FX0A's row of the opcode table (R211). -/
def isWaitForKey (w : Word) : Bool := (rowOf (.ldVxK 0)).matchesWord w

/-- The `can_proceed` port (R211), over the same key sample a step would take. -/
def State.canProceed (s : State) : Bool :=
  s.status == .running &&
    !(InRange s.pc.toNat 2 && isWaitForKey s.fetchWord && s.sampleKey.isNone)

/-- A finished program: PC points at `1NNN` with NNN = PC. A convention for claims only (R254, D24). -/
def State.finished (s : State) : Bool :=
  InRange s.pc.toNat 2 && s.fetchWord == wordNNN 0x1 (s.pc.setWidth 12)

/-- The block's answer to one port event (R253): a step with its own samples and no tick, a tick, a
reset, a power-on, or a load, which leaves the state unchanged where it is rejected. -/
def State.handle (s : State) (e : PortEvent) : Host.Outcome State Fault Refusal :=
  match e with
  | .powerOn p => .next (s.powerOn p)
  | .reset r => .next (s.applyReset r)
  | .load image => .next ((s.load image).getD s)
  | .step key rand => step (s.present ⟨key, rand, 0⟩)
  | .tick => .next s.tick

end Sys2Proof.Machine
end

