-- ==== Sys2Proof/Safety.lean ====
section
/-! DEFINITION. The terms claims use: what an instruction may change, what a safe state is, and the
invariants of the block. -/

namespace Sys2Proof.Machine

/-- What an instruction is allowed to change, PC aside; by default nothing. -/
structure Changes where
  /-- The general registers that may change. -/
  regs : RegIdx → Prop := fun _ => False
  /-- I may change. -/
  index : Prop := False
  /-- SP and the stack slots may change. -/
  stack : Prop := False
  /-- DT may change. -/
  dt : Prop := False
  /-- ST may change. -/
  st : Prop := False
  /-- The addresses of memory that may change. -/
  mem : Nat → Prop := fun _ => False
  /-- FB may change and events may be emitted. -/
  display : Prop := False
  /-- STATUS, FAULT_CAUSE and FAULT_INFO may change. -/
  status : Prop := False

/-- From `s` to `t` nothing changed but what `ch` allows, PC aside: the frame of an instruction. Memory is
compared through the read of one byte, FB through its pixels. -/
structure Keeps (ch : Changes) (s t : State) : Prop where
  regs : ∀ r, ¬ ch.regs r → t.reg r = s.reg r
  index : ¬ ch.index → t.i = s.i
  sp : ¬ ch.stack → t.sp = s.sp
  slots : ¬ ch.stack → ∀ k, t.slot k = s.slot k
  dt : ¬ ch.dt → t.dt = s.dt
  st : ¬ ch.st → t.st = s.st
  mem : ∀ a, ¬ ch.mem a → t.mem.read a = s.mem.read a
  pixels : ¬ ch.display → ∀ c r, t.fb.pixel c r = s.fb.pixel c r
  outputs : ¬ ch.display → t.outputs = s.outputs
  status : ¬ ch.status → t.status = s.status
  cause : ¬ ch.status → t.cause = s.cause
  info : ¬ ch.status → t.info = s.info
  /-- The FONT_DIGIT_POLICY the block is configured with is changed by no instruction, tick or reset. -/
  fontPolicy : t.fontPolicy = s.fontPolicy
  /-- The model's own input list and step counter are moved on by the step, never by an instruction. -/
  inputs : t.inputs = s.inputs
  clock : t.clock = s.clock

/-- `u16(PC0 + n)` (R35). -/
def pcPlus (s : State) (n : Nat) : Word := u16 (s.pc.toNat + n)

/-- `i` completes in `s`: exec answers a next state that differs from `s` only where `ch` and PC allow, and
of which `P` holds. -/
def Completes (i : Instr) (s : State) (ch : Changes) (P : State → Prop) : Prop :=
  ∃ t, exec i s = .next t ∧ Keeps ch s t ∧ P t

/-- Every word that has the fixed bits `pat` under `mask` decodes to the instruction `f` makes of its
fields: the encoding line of an instruction's rule (R101). -/
def EncodedAs (mask pat : Word) (f : Views → Instr) : Prop :=
  ∀ w : Word, w &&& mask = pat → decode w = some (f (views w))

/-- The instruction `i` raised the exception: it answers the state `s` with nothing changed but STATUS,
FAULT_CAUSE and FAULT_INFO, so PC is still PC0 (R224). -/
def Raises (i : Instr) (s : State) (c : FaultCause) (f : FaultInfo) : Prop :=
  ∃ t, exec i s = .next t ∧ t.status = .halted ∧ t.cause = c ∧ t.info = f ∧ t.pc = s.pc ∧
    Keeps { status := True } s t

/-- The instructions that write VF as a flag (R32). -/
def writesFlag : Instr → Bool
  | .addReg _ _ | .sub _ _ | .shr _ _ | .subn _ _ | .shl _ _ | .drw _ _ _ | .addI _ => true
  | _ => false

/-- The registers an instruction names as destinations, the flag aside (the table of R31). -/
def namesDest : Instr → RegIdx → Bool
  | .ldImm x _, r | .addImm x _, r | .ldReg x _, r | .orReg x _, r | .andReg x _, r | .xorReg x _, r => r == x
  | .addReg x _, r | .sub x _, r | .shr x _, r | .subn x _, r | .shl x _, r => r == x
  | .rnd x _, r | .ldVxDt x, r | .ldVxK x, r => r == x
  | .ldVxMem x, r => decide (r ≤ x)
  | _, _ => false

/-- The addresses an instruction stores to in the state `s` (R61): three for FX33, X + 1 for FX55. -/
def storesTo (i : Instr) (s : State) (a : Nat) : Prop :=
  match i with
  | .ldB _ => s.i.toNat ≤ a ∧ a < s.i.toNat + 3
  | .ldMemVx x => s.i.toNat ≤ a ∧ a < s.i.toNat + (x.val + 1)
  | _ => False

/-- A sprite pixel (R175, R176): whether the sprite `rows` drawn at (x, y) has a 1 bit on column c of
display row r, wrapped modulo 64 and 32. -/
def spriteAt (x y : Nat) (rows : List Byte) (c : Fin 64) (r : Fin 32) : Prop :=
  ∃ (row : Nat) (b : Byte) (bit : Nat), rows[row]? = some b ∧ bit < 8 ∧ b.getLsbD (7 - bit) = true ∧
    (x + bit) % 64 = c.val ∧ (y + row) % 32 = r.val

/-- The fault record agrees with STATUS and with what raised it (R49, R220, R224): a running block has no
cause and an absent record; a halted one has the cause's record with PC still at the faulting
instruction. No step raises MalformedInstruction (R221). -/
def FaultRecordOk (s : State) : Prop :=
  match s.cause with
  | .none => s.status = .running ∧ s.info = FaultInfo.absent
  | .malformedInstruction => False
  | .unknownOpcode =>
    s.status = .halted ∧ ∃ w, decode w = none ∧ s.info = ⟨s.pc, some w, none, none⟩
  | .outOfRangeAddress =>
    s.status = .halted ∧
      ∃ w a k, 0x1000 ≤ a ∧ (w = none ↔ k = AccessKind.fetch) ∧ s.info = ⟨s.pc, w, some a, some k⟩
  | .stackOverflow =>
    s.status = .halted ∧ s.sp = 16 ∧ ∃ nnn, s.info = ⟨s.pc, some (encode (.call nnn)), none, none⟩
  | .stackUnderflow =>
    s.status = .halted ∧ s.sp = 0 ∧ s.info = ⟨s.pc, some 0x00EE, none, none⟩

/-- The invariant of the block: memory in canonical form and a consistent fault record. -/
def Inv (s : State) : Prop := s.mem.wf = true ∧ FaultRecordOk s

/-- How far PC can get (R37): no further than 0xFFF + 0xFF, with no return address above 0x1000. -/
def PcInReach (s : State) : Prop := s.pc.toNat ≤ 0x10FE ∧ ∀ k, (s.slot k).toNat ≤ 0x1000

/-- A safe state: the block has not faulted (R49). -/
def Safe (s : State) : Prop := s.status = .running

/-- The states the host can bring the block to, by steps and port events in any order (R232, R253). -/
inductive Reachable : State → Prop where
  | reset : Reachable State.reset
  | step {s t : State} : Reachable s → step s = .next t → Reachable t
  | port {s t : State} (e : PortEvent) : Reachable s → s.handle e = .next t → Reachable t

end Sys2Proof.Machine
end

