-- ==== Sys2Proof/Certificates/Slice0/Obligations.lean ====
section
/-! DEFINITION. The statements for the provers. Each docstring names the rules of spec/ it formalises; where
a clause rests on a decision (D<n>), a derivation or supplied knowledge (K<n>) of the spec, the docstring
says so. -/

open Sys2Proof Sys2Proof.Machine

/-! Encoding -/

/-- Decoding the two bytes of any encoded instruction gives the instruction back, whatever its operands
(R11, R63, R91, R95 to R101). -/
def Obligations.DecodeOfEncode : Prop := ∀ i : Instr, decodeBytes (bytesOfWord (encode i)) = .ok i

/-- A word that decodes is the encoding of what it decodes to, so no bit of it is dropped (R91, R101). -/
def Obligations.EncodeOfDecode : Prop := ∀ (w : Word) (i : Instr), decode w = some i → encode i = w

/-- A word is unknown exactly when no row of the opcode table matches it, and a word that decodes matches
the row of its instruction and no other (R101, whose disjointness the spec derives, and R102, D3, D4). -/
def Obligations.DecodeAgreesWithTable : Prop :=
  ∀ w : Word,
    (decode w = none ↔ ∀ r ∈ opcodeTable, r.matchesWord w = false) ∧
    ∀ i, decode w = some i → ∀ r ∈ opcodeTable, (r.matchesWord w = true ↔ r = rowOf i)

/-- Words written out from the encodings of the rules decode to the instructions they stand for: one of
each family, and three unknown words (R120, R131, R146, R162, R170, R175, R198, R210, R102). -/
def Obligations.WrittenWordsDecode : Prop :=
  decodeBytes [0x00, 0xE0] = .ok .cls ∧ decodeBytes [0x2A, 0xBC] = .ok (.call 0xABC) ∧
  decodeBytes [0xE5, 0x9E] = .ok (.skp 5) ∧ decodeBytes [0x80, 0x1E] = .ok (.shl 0 1) ∧
  decodeBytes [0xC3, 0x0F] = .ok (.rnd 3 0x0F) ∧ decodeBytes [0xD0, 0x15] = .ok (.drw 0 1 5) ∧
  decodeBytes [0xF2, 0x55] = .ok (.ldMemVx 2) ∧ decodeBytes [0xF3, 0x0A] = .ok (.ldVxK 3) ∧
  decodeBytes [0x01, 0xE0] = .error (.unknownOpcode 0x01E0) ∧
  decodeBytes [0x51, 0x21] = .error (.unknownOpcode 0x5121) ∧
  decodeBytes [0xF0, 0x1F] = .error (.unknownOpcode 0xF01F)

/-! The instruction cycle -/

/-- When the block runs and the bytes at PC and PC + 1 decode to i, an engine step is exec of i; a step adds
the ticks that fall before the next step and moves the model's input list on (R107, D2, R232, D19). -/
def Obligations.StepRunsDecodedInstruction : Prop :=
  ∀ (s t : State) (i : Instr), s.status = .running → s.pc.toNat ≤ 0xFFE →
    decodeBytes [s.mem.read s.pc.toNat, s.mem.read (s.pc.toNat + 1)] = .ok i →
    engineStep s = exec i s ∧
      (exec i s = .next t → step s = .next (State.ticks s.now.ticks t).nextInputs)

/-- While Halted a step does nothing: only the ticks, which run on, and the model's input list move
(R106, D8, R233, D19). -/
def Obligations.HaltedStepDoesNothing : Prop :=
  ∀ s : State, s.status = .halted →
    engineStep s = .next s ∧ step s = .next (State.ticks s.now.ticks s).nextInputs

/-- A fetch that leaves memory raises OutOfRangeAddress with no word, the lowest out-of-range address and
kind fetch, whatever the bytes are, and changes nothing else (R65, R107, R226, D6, D11, D34). -/
def Obligations.FetchOutOfRangeRaises : Prop :=
  ∀ s : State, s.status = .running → 0xFFE < s.pc.toNat →
    ∃ t, engineStep s = .next t ∧ t.status = .halted ∧ t.cause = .outOfRangeAddress ∧
      t.info = ⟨s.pc, none, some (max s.pc.toNat 0x1000), some .fetch⟩ ∧ t.pc = s.pc ∧
      Keeps { status := True } s t

/-- A fetched word of the unknown space raises UnknownOpcode before any execution, recording the pc and the
word (R220, R222; that the block halts, with nothing else changed, is R224 and R49, the spec's decision D8,
log entries 1 and 18). -/
def Obligations.UnknownWordRaises : Prop :=
  ∀ s : State, s.status = .running → s.pc.toNat ≤ 0xFFE → decode s.fetchWord = none →
    ∃ t, engineStep s = .next t ∧ t.status = .halted ∧ t.cause = .unknownOpcode ∧
      t.info = ⟨s.pc, some s.fetchWord, none, none⟩ ∧ t.pc = s.pc ∧ Keeps { status := True } s t

/-- Every step from every state answers a next state: no instruction of the table is without a meaning and
every exception is a state of the block (R103, R108, R224). -/
def Obligations.EveryStepAnswersNext : Prop := ∀ s : State, ∃ t, step s = .next t

/-- A fault is precise: an engine step that halts a running block changes nothing but STATUS, FAULT_CAUSE
and FAULT_INFO, so PC still points at the faulting instruction (R224, R226, D8). -/
def Obligations.FaultIsPrecise : Prop :=
  ∀ s t : State, s.status = .running → engineStep s = .next t → t.status = .halted →
    t.cause ≠ .none ∧ t.info.pc = s.pc ∧ t.pc = s.pc ∧ Keeps { status := True } s t

/-! Clear, return, jumps and calls -/

/-- 00E0 clears every pixel and flushes the cleared grid exactly once (R120). -/
def Obligations.ClsClearsAndFlushes : Prop :=
  EncodedAs 0xFFFF 0x00E0 (fun _ => .cls) ∧
  ∀ s : State, Completes .cls s { display := True } fun t =>
    (∀ c r, t.fb.pixel c r = false) ∧ t.outputs = .flush t.fb :: s.outputs ∧ t.pc = pcPlus s 2

/-- 00EE pops: PC takes S[SP - 1] itself, SP goes down by one and every slot keeps its value; with SP = 0 it
raises StackUnderflow (R121, R40, R225; the underflow is D7, the stale slot D25). -/
def Obligations.RetPopsOrUnderflows : Prop :=
  ∀ s : State,
    (∀ k : Fin 16, s.sp.val = k.val + 1 →
      Completes .ret s { stack := True } fun t =>
        t.pc = s.slot k ∧ t.sp.val = k.val ∧ ∀ j, t.slot j = s.slot j) ∧
    (s.sp = 0 → Raises .ret s .stackUnderflow ⟨s.pc, some 0x00EE, none, none⟩)

/-- 1NNN sets PC to NNN and changes nothing else (R130). -/
def Obligations.JpSetsPc : Prop :=
  EncodedAs 0xF000 0x1000 (fun v => .jp v.nnn) ∧
  ∀ (s : State) (nnn : BitVec 12), Completes (.jp nnn) s {} fun t => t.pc.toNat = nnn.toNat

/-- 2NNN pushes PC0 + 2 at SP, moves SP up and jumps to NNN, every other slot unchanged; with 16 entries it
raises StackOverflow (R131, R40, R225; the overflow is D7, SP = 16 is C3 and D26). -/
def Obligations.CallPushesOrOverflows : Prop :=
  ∀ (s : State) (nnn : BitVec 12),
    (∀ k : Fin 16, s.sp.val = k.val →
      Completes (.call nnn) s { stack := True } fun t =>
        t.slot k = pcPlus s 2 ∧ (∀ j, j ≠ k → t.slot j = s.slot j) ∧ t.sp.val = k.val + 1 ∧
          t.pc.toNat = nnn.toNat) ∧
    (s.sp = 16 → Raises (.call nnn) s .stackOverflow ⟨s.pc, some (encode (.call nnn)), none, none⟩)

/-- BNNN sets PC to NNN + V0, not masked to 12 bits and never wrapping (R132). -/
def Obligations.JpV0AddsV0 : Prop :=
  ∀ (s : State) (nnn : BitVec 12),
    Completes (.jpV0 nnn) s {} fun t => t.pc.toNat = nnn.toNat + (s.reg 0).toNat

/-- A return that meets the stack a call left goes to the address after the call and gives SP back
(R121, R131; the spec derives it). -/
def Obligations.ReturnFollowsCall : Prop :=
  ∀ (s t u : State) (nnn : BitVec 12), s.sp ≠ 16 → exec (.call nnn) s = .next t →
    u.sp = t.sp → (∀ k, u.slot k = t.slot k) →
    ∃ r, exec .ret u = .next r ∧ r.pc = pcPlus s 2 ∧ r.sp = s.sp

/-! Skips -/

/-- 3XNN and 4XNN skip on V[X] = NN and on V[X] ≠ NN, and change nothing but PC (R140, R142, R143; the
conditions are supplied knowledge, K3). -/
def Obligations.ImmediateSkips : Prop :=
  ∀ (s : State) (x : RegIdx) (nn : Byte),
    (Completes (.seImm x nn) s {} fun t => t.pc = pcPlus s (if s.reg x = nn then 4 else 2)) ∧
    (Completes (.sneImm x nn) s {} fun t => t.pc = pcPlus s (if s.reg x = nn then 2 else 4))

/-- 5XY0 and 9XY0 skip on V[X] = V[Y] and on V[X] ≠ V[Y]; with X = Y the first always skips and the second
never does (R140, R144, R145; the conditions are supplied knowledge, K3). -/
def Obligations.RegisterSkips : Prop :=
  ∀ (s : State) (x y : RegIdx),
    (Completes (.seReg x y) s {} fun t =>
      t.pc = pcPlus s (if s.reg x = s.reg y then 4 else 2) ∧ (x = y → t.pc = pcPlus s 4)) ∧
    (Completes (.sneReg x y) s {} fun t =>
      t.pc = pcPlus s (if s.reg x = s.reg y then 2 else 4) ∧ (x = y → t.pc = pcPlus s 2))

/-- EX9E skips exactly when a key is presented and equals V[X], EXA1 exactly when not; a register above 0xF
matches no key (R140, R146, R147; the polarity is supplied knowledge, K4). -/
def Obligations.KeySkips : Prop :=
  ∀ (s : State) (x : RegIdx),
    (Completes (.skp x) s {} fun t =>
      ((∃ k, s.now.key = some k ∧ (s.reg x).toNat = k.val) → t.pc = pcPlus s 4) ∧
      ((¬ ∃ k, s.now.key = some k ∧ (s.reg x).toNat = k.val) → t.pc = pcPlus s 2) ∧
      (0xF < (s.reg x).toNat → t.pc = pcPlus s 2)) ∧
    (Completes (.sknp x) s {} fun t =>
      ((∃ k, s.now.key = some k ∧ (s.reg x).toNat = k.val) → t.pc = pcPlus s 2) ∧
      ((¬ ∃ k, s.now.key = some k ∧ (s.reg x).toNat = k.val) → t.pc = pcPlus s 4) ∧
      (0xF < (s.reg x).toNat → t.pc = pcPlus s 4))

/-! Register set and ALU -/

/-- 6XNN (R152). -/
def Obligations.LdImmAssigns : Prop :=
  EncodedAs 0xF000 0x6000 (fun v => .ldImm v.x v.nn) ∧
  ∀ (s : State) (x : RegIdx) (nn : Byte), Completes (.ldImm x nn) s { regs := fun r => r = x } fun t =>
    t.reg x = nn ∧ t.pc = pcPlus s 2

/-- 7XNN adds modulo 256 and writes no flag, even when the sum exceeds 255 (R153). -/
def Obligations.AddImmWrapsWithoutFlag : Prop :=
  EncodedAs 0xF000 0x7000 (fun v => .addImm v.x v.nn) ∧
  ∀ (s : State) (x : RegIdx) (nn : Byte), Completes (.addImm x nn) s { regs := fun r => r = x } fun t =>
    (t.reg x).toNat = ((s.reg x).toNat + nn.toNat) % 256 ∧ t.pc = pcPlus s 2

/-- 8XY0 copies V[Y] into V[X] (R154). -/
def Obligations.LdRegCopies : Prop :=
  EncodedAs 0xF00F 0x8000 (fun v => .ldReg v.x v.y) ∧
  ∀ (s : State) (x y : RegIdx), Completes (.ldReg x y) s { regs := fun r => r = x } fun t =>
    t.reg x = s.reg y ∧ t.pc = pcPlus s 2

/-- 8XY1, 8XY2 and 8XY3 are OR, AND and XOR bit by bit, and write no flag (R155, R156, R157). -/
def Obligations.BitwiseOperations : Prop :=
  EncodedAs 0xF00F 0x8001 (fun v => .orReg v.x v.y) ∧ EncodedAs 0xF00F 0x8002 (fun v => .andReg v.x v.y) ∧
  EncodedAs 0xF00F 0x8003 (fun v => .xorReg v.x v.y) ∧
  ∀ (s : State) (x y : RegIdx),
    (Completes (.orReg x y) s { regs := fun r => r = x } fun t =>
      (∀ k, (t.reg x).getLsbD k = ((s.reg x).getLsbD k || (s.reg y).getLsbD k)) ∧ t.pc = pcPlus s 2) ∧
    (Completes (.andReg x y) s { regs := fun r => r = x } fun t =>
      (∀ k, (t.reg x).getLsbD k = ((s.reg x).getLsbD k && (s.reg y).getLsbD k)) ∧ t.pc = pcPlus s 2) ∧
    (Completes (.xorReg x y) s { regs := fun r => r = x } fun t =>
      (∀ k, (t.reg x).getLsbD k = ((s.reg x).getLsbD k ^^ (s.reg y).getLsbD k)) ∧ t.pc = pcPlus s 2)

/-- 8XY4: the sum modulo 256, then VF = 1 iff the sum of the pre-operation values exceeds 255; with X = 0xF
only the flag remains (R158). -/
def Obligations.AddRegSetsCarry : Prop :=
  EncodedAs 0xF00F 0x8004 (fun v => .addReg v.x v.y) ∧
  ∀ (s : State) (x y : RegIdx), Completes (.addReg x y) s { regs := fun r => r = x ∨ r = 0xF } fun t =>
    (x ≠ 0xF → (t.reg x).toNat = ((s.reg x).toNat + (s.reg y).toNat) % 256) ∧
    (t.reg 0xF).toNat = (if 255 < (s.reg x).toNat + (s.reg y).toNat then 1 else 0) ∧ t.pc = pcPlus s 2

/-- 8XY5: V[X] - V[Y] modulo 256, then VF = 1 iff no borrow, that is V[X] ≥ V[Y] before (R159). -/
def Obligations.SubSetsNotBorrow : Prop :=
  EncodedAs 0xF00F 0x8005 (fun v => .sub v.x v.y) ∧
  ∀ (s : State) (x y : RegIdx), Completes (.sub x y) s { regs := fun r => r = x ∨ r = 0xF } fun t =>
    (x ≠ 0xF → ((t.reg x).toNat : Int) = (((s.reg x).toNat : Int) - (s.reg y).toNat) % 256) ∧
    (t.reg 0xF).toNat = (if (s.reg y).toNat ≤ (s.reg x).toNat then 1 else 0) ∧ t.pc = pcPlus s 2

/-- 8XY6: V[X] shifted right by one, then VF = the old bit 0; V[Y] has no effect (R160). That the flag stays
in VF when X = 0xF is the spec's own resolution C1 of the source's order (U25; log entry 18). -/
def Obligations.ShrDropsBitZero : Prop :=
  EncodedAs 0xF00F 0x8006 (fun v => .shr v.x v.y) ∧
  ∀ (s : State) (x y : RegIdx), Completes (.shr x y) s { regs := fun r => r = x ∨ r = 0xF } fun t =>
    (x ≠ 0xF → (t.reg x).toNat = (s.reg x).toNat / 2) ∧
    (t.reg 0xF).toNat = (s.reg x).toNat % 2 ∧ t.pc = pcPlus s 2

/-- 8XY7: V[Y] - V[X] modulo 256, then VF = 1 iff V[Y] ≥ V[X] before (R161). -/
def Obligations.SubnSetsNotBorrow : Prop :=
  EncodedAs 0xF00F 0x8007 (fun v => .subn v.x v.y) ∧
  ∀ (s : State) (x y : RegIdx), Completes (.subn x y) s { regs := fun r => r = x ∨ r = 0xF } fun t =>
    (x ≠ 0xF → ((t.reg x).toNat : Int) = (((s.reg y).toNat : Int) - (s.reg x).toNat) % 256) ∧
    (t.reg 0xF).toNat = (if (s.reg x).toNat ≤ (s.reg y).toNat then 1 else 0) ∧ t.pc = pcPlus s 2

/-- 8XYE: V[X] shifted left by one modulo 256, then VF = the old bit 7; V[Y] has no effect (R162). That the
flag stays in VF when X = 0xF is the spec's own resolution C1 of the source's order (U25; log entry 18). -/
def Obligations.ShlDropsBitSeven : Prop :=
  EncodedAs 0xF00F 0x800E (fun v => .shl v.x v.y) ∧
  ∀ (s : State) (x y : RegIdx), Completes (.shl x y) s { regs := fun r => r = x ∨ r = 0xF } fun t =>
    (x ≠ 0xF → (t.reg x).toNat = 2 * (s.reg x).toNat % 256) ∧
    (t.reg 0xF).toNat = (s.reg x).toNat / 128 ∧ t.pc = pcPlus s 2

/-! Random and draw -/

/-- CXNN masks the byte presented at its step (R170). That the draw is the sample `s.now`, and that any byte
can be presented, is the model's form of the spec's decision D22 (log entry 2, a DESIGN CHOICE). -/
def Obligations.RndMasksTheDraw : Prop :=
  EncodedAs 0xF000 0xC000 (fun v => .rnd v.x v.nn) ∧
  (∀ (s : State) (x : RegIdx) (nn : Byte), Completes (.rnd x nn) s { regs := fun r => r = x } fun t =>
    t.reg x = s.now.rand &&& nn ∧ t.pc = pcPlus s 2) ∧
  ∀ (s : State) (r : Byte) (k : Option Key) (n : Nat), (s.present ⟨k, r, n⟩).now.rand = r

/-- DXYN, bit after bit as the spec draws it, is one parallel XOR of the whole sprite: a pixel flips exactly
where the sprite has a 1 bit, VF = 1 iff some such pixel was lit, and the drawn grid is flushed once
(R175, R176, R177; the parallel form is the spec's derivation R178, N = 0 is D31). -/
def Obligations.DrwIsOneParallelXor : Prop :=
  ∀ (s : State) (x y : RegIdx) (n : BitVec 4), (n = 0 ∨ s.i.toNat + n.toNat ≤ 0x1000) →
    Completes (.drw x y n) s { regs := fun r => r = 0xF, display := True } fun t =>
      (∀ c r, (t.fb.pixel c r = true ↔
        ¬ (s.fb.pixel c r = true ↔
          spriteAt (s.reg x).toNat (s.reg y).toNat (s.mem.readBytes s.i.toNat n.toNat) c r))) ∧
      ((t.reg 0xF).toNat = 1 ∨ (t.reg 0xF).toNat = 0) ∧
      ((t.reg 0xF).toNat = 1 ↔ ∃ c r, s.fb.pixel c r = true ∧
        spriteAt (s.reg x).toNat (s.reg y).toNat (s.mem.readBytes s.i.toNat n.toNat) c r) ∧
      t.outputs = .flush t.fb :: s.outputs ∧ t.pc = pcPlus s 2

/-- DXYN whose sprite leaves memory raises OutOfRangeAddress of kind read: no pixel, no VF, no flush
(R175, R65, R224, D6, D34). -/
def Obligations.DrwOutOfRangeRaises : Prop :=
  ∀ (s : State) (x y : RegIdx) (n : BitVec 4), n ≠ 0 → 0x1000 < s.i.toNat + n.toNat →
    Raises (.drw x y n) s .outOfRangeAddress
      ⟨s.pc, some (encode (.drw x y n)), some (max s.i.toNat 0x1000), some .read⟩

/-- Drawing the same sprite twice at the same position restores the display; where the sprite lands on unlit
pixels only, the first draw reports no collision and the second reports one if the sprite has a 1 bit (R180,
which the spec derives). X and Y other than 0xF, since the first draw writes VF. -/
def Obligations.DrawTwiceRestores : Prop :=
  ∀ (s : State) (x y : RegIdx) (n : BitVec 4), x ≠ 0xF → y ≠ 0xF →
    (n = 0 ∨ s.i.toNat + n.toNat ≤ 0x1000) →
    ∃ t u, exec (.drw x y n) s = .next t ∧ exec (.drw x y n) t = .next u ∧
      (∀ c r, u.fb.pixel c r = s.fb.pixel c r) ∧
      ((∀ c r, spriteAt (s.reg x).toNat (s.reg y).toNat (s.mem.readBytes s.i.toNat n.toNat) c r →
          s.fb.pixel c r = false) →
        (t.reg 0xF).toNat = 0 ∧
        ((∃ c r, spriteAt (s.reg x).toNat (s.reg y).toNat (s.mem.readBytes s.i.toNat n.toNat) c r) →
          (u.reg 0xF).toNat = 1))

/-! Index, timers and memory blocks -/

/-- ANNN sets I to NNN, the high 4 bits 0 (R190; supplied knowledge, K5 and D5). -/
def Obligations.LdISetsIndex : Prop :=
  ∀ (s : State) (nnn : BitVec 12), Completes (.ldI nnn) s { index := True } fun t =>
    t.i.toNat = nnn.toNat ∧ t.pc = pcPlus s 2

/-- FX07 reads DT into V[X] (R191). -/
def Obligations.LdVxDtReadsDelayTimer : Prop :=
  EncodedAs 0xF0FF 0xF007 (fun v => .ldVxDt v.x) ∧
  ∀ (s : State) (x : RegIdx), Completes (.ldVxDt x) s { regs := fun r => r = x } fun t =>
    t.reg x = s.dt ∧ t.pc = pcPlus s 2

/-- FX15 writes V[X] into DT; a DT of 0 stays 0 at a tick (R192). -/
def Obligations.LdDtVxSetsDelayTimer : Prop :=
  EncodedAs 0xF0FF 0xF015 (fun v => .ldDtVx v.x) ∧
  ∀ (s : State) (x : RegIdx), Completes (.ldDtVx x) s { dt := True } fun t =>
    t.dt = s.reg x ∧ t.pc = pcPlus s 2 ∧ (s.reg x = 0 → t.tick.dt = 0)

/-- FX18 writes V[X] into ST and emits nothing; a written 1 beeps once at the next tick (R193). -/
def Obligations.LdStVxSetsSoundTimer : Prop :=
  EncodedAs 0xF0FF 0xF018 (fun v => .ldStVx v.x) ∧
  ∀ (s : State) (x : RegIdx), Completes (.ldStVx x) s { st := True } fun t =>
    t.st = s.reg x ∧ t.pc = pcPlus s 2 ∧ t.outputs = s.outputs ∧
      (s.reg x = 1 → t.tick.outputs = .beep :: s.outputs)

/-- FX1E: I gets the sum modulo 65536 (D12), then VF = 1 iff the unsigned sum of the pre-operation values
exceeds 0xFFF, also when X = 0xF (R194). -/
def Obligations.AddISetsIndexFlag : Prop :=
  ∀ (s : State) (x : RegIdx), Completes (.addI x) s { regs := fun r => r = 0xF, index := True } fun t =>
    t.i.toNat = (s.i.toNat + (s.reg x).toNat) % 65536 ∧
    (t.reg 0xF).toNat = (if 0xFFF < s.i.toNat + (s.reg x).toNat then 1 else 0) ∧ t.pc = pcPlus s 2

/-- FX29 points I at glyph 5 * V[X] for a digit under every FONT_DIGIT_POLICY the block may be configured with;
above 0xF, linear gives 5 * V[X], low_nibble 5 times the low nibble, and any the step's own free draw
(R195, R196; the three policies are the spec's decision D13, log entry 8). -/
def Obligations.LdFPointsAtGlyph : Prop :=
  ∀ (s : State) (x : RegIdx), Completes (.ldF x) s { index := True } fun t =>
    ((s.reg x).toNat ≤ 0xF → t.i.toNat = 5 * (s.reg x).toNat) ∧
    (s.fontPolicy = .linear → t.i.toNat = 5 * (s.reg x).toNat) ∧
    (s.fontPolicy = .lowNibble → t.i.toNat = 5 * ((s.reg x).toNat % 16)) ∧
    (s.fontPolicy = .any → 0xF < (s.reg x).toNat → t.i = Config.freeGlyphAddr s.clock) ∧
    t.pc = pcPlus s 2

/-- FX33 stores the hundreds, tens and ones of V[X] at I, I + 1, I + 2 and nothing else; when I + 2 exceeds
0xFFF it raises OutOfRangeAddress of kind write with nothing written (R197; the rejection, the recorded address
and the halt are R65 and R224, the spec's decisions D6, D34 and D8, log entries 1, 10 and 18). Memory is in
canonical form, which every step keeps. -/
def Obligations.LdBStoresDigits : Prop :=
  EncodedAs 0xF0FF 0xF033 (fun v => .ldB v.x) ∧
  ∀ (s : State) (x : RegIdx), s.mem.wf = true →
    (s.i.toNat + 2 ≤ 0xFFF →
      Completes (.ldB x) s { mem := storesTo (.ldB x) s } fun t =>
        (t.mem.read s.i.toNat).toNat = (s.reg x).toNat / 100 ∧
        (t.mem.read (s.i.toNat + 1)).toNat = (s.reg x).toNat / 10 % 10 ∧
        (t.mem.read (s.i.toNat + 2)).toNat = (s.reg x).toNat % 10 ∧ t.pc = pcPlus s 2) ∧
    (0xFFF < s.i.toNat + 2 →
      Raises (.ldB x) s .outOfRangeAddress
        ⟨s.pc, some (encode (.ldB x)), some (max s.i.toNat 0x1000), some .write⟩)

/-- FX55 stores V0 to VX at I onward and nothing else, I unchanged (D14); when I + X exceeds 0xFFF it raises
OutOfRangeAddress of kind write with nothing written (R198, R65). -/
def Obligations.LdMemVxStoresRegisters : Prop :=
  ∀ (s : State) (x : RegIdx), s.mem.wf = true →
    (s.i.toNat + x.val ≤ 0xFFF →
      Completes (.ldMemVx x) s { mem := storesTo (.ldMemVx x) s } fun t =>
        (∀ k : RegIdx, k ≤ x → t.mem.read (s.i.toNat + k.val) = s.reg k) ∧ t.pc = pcPlus s 2) ∧
    (0xFFF < s.i.toNat + x.val →
      Raises (.ldMemVx x) s .outOfRangeAddress
        ⟨s.pc, some (encode (.ldMemVx x)), some (max s.i.toNat 0x1000), some .write⟩)

/-- FX65 loads V0 to VX from I onward, every other register unchanged, I unchanged (D14); when I + X exceeds
0xFFF it raises OutOfRangeAddress of kind read with no register changed (R199, R65). -/
def Obligations.LdVxMemLoadsRegisters : Prop :=
  ∀ (s : State) (x : RegIdx),
    (s.i.toNat + x.val ≤ 0xFFF →
      Completes (.ldVxMem x) s { regs := fun r => r ≤ x } fun t =>
        (∀ k : RegIdx, k ≤ x → t.reg k = s.mem.read (s.i.toNat + k.val)) ∧ t.pc = pcPlus s 2) ∧
    (0xFFF < s.i.toNat + x.val →
      Raises (.ldVxMem x) s .outOfRangeAddress
        ⟨s.pc, some (encode (.ldVxMem x)), some (max s.i.toNat 0x1000), some .read⟩)

/-- A byte stored by FX55 is what the next fetch sees (R75, D30, which the spec decides; R198). -/
def Obligations.StoredCodeIsFetched : Prop :=
  ∀ (s t : State) (x k : RegIdx), s.mem.wf = true → s.i.toNat + x.val ≤ 0xFFF →
    exec (.ldMemVx x) s = .next t → k < x → t.pc.toNat = s.i.toNat + k.val →
    t.fetchWord = wordOfBytes (s.reg k) (s.reg (k + 1))

/-! Wait for key -/

/-- FX0A with no key presented changes nothing at all, PC included; with a key it writes the key into V[X] and
advances (R210). -/
def Obligations.LdVxKWaitsForKey : Prop :=
  EncodedAs 0xF0FF 0xF00A (fun v => .ldVxK v.x) ∧
  ∀ (s : State) (x : RegIdx),
    (s.now.key = none → exec (.ldVxK x) s = .next s) ∧
    ∀ k, s.now.key = some k → Completes (.ldVxK x) s { regs := fun r => r = x } fun t =>
      (t.reg x).toNat = k.val ∧ t.pc = pcPlus s 2

/-- can_proceed is false exactly when the block is Halted or would hold: PC in range at an FX0A with no key
presented; and a step of a running block that cannot proceed changes nothing (R211, D20). -/
def Obligations.CannotProceedMeansHold : Prop :=
  ∀ s : State,
    (s.canProceed = false ↔
      s.status = .halted ∨
        (s.pc.toNat ≤ 0xFFE ∧ (∃ x, decode s.fetchWord = some (.ldVxK x)) ∧ s.now.key = none)) ∧
    (s.status = .running → s.canProceed = false → engineStep s = .next s)

/-! The ticker -/

/-- A tick takes 1 from each nonzero timer, leaves a zero one, emits the beep when ST was 1 and no event
otherwise, and changes nothing else (R230, R231, D18), whatever STATUS is (R233, D19). -/
def Obligations.TickCountsDown : Prop :=
  ∀ s : State,
    s.tick.dt.toNat = s.dt.toNat - 1 ∧ s.tick.st.toNat = s.st.toNat - 1 ∧ s.tick.pc = s.pc ∧
      (∀ c r, s.tick.fb.pixel c r = s.fb.pixel c r) ∧
      s.tick.outputs = (if s.st = 1 then .beep :: s.outputs else s.outputs) ∧
      Keeps { dt := True, st := True, display := True } s s.tick

/-- The beep is emitted exactly when a tick takes ST from 1 to 0: no other tick beeps and no engine step does
(R231). A reset and a power-on emit nothing (R250, R251), in the model's form that they keep its list of
events (log entry 16, a DESIGN CHOICE). -/
def Obligations.BeepExactlyAtZero : Prop :=
  (∀ s : State, s.tick.outputs = if s.st = 1 then .beep :: s.outputs else s.outputs) ∧
  (∀ s t : State, engineStep s = .next t → t.outputs.count .beep = s.outputs.count .beep) ∧
  (∀ (s : State) (r : ResetState), (s.applyReset r).outputs = s.outputs) ∧
  ∀ (s : State) (p : PowerOnParams), (s.powerOn p).outputs = s.outputs

/-- DT grows over a step only when the step runs FX15 (R258). -/
def Obligations.DelayTimerGrowsOnlyByFx15 : Prop :=
  ∀ s t : State, step s = .next t → s.dt.toNat < t.dt.toNat →
    ∃ x, s.status = .running ∧ s.pc.toNat ≤ 0xFFE ∧ decode s.fetchWord = some (.ldDtVx x)

/-! Reset, power-on and load -/

/-- The state after reset has the default values of R55, the 80 bytes of R66 and the default FONT_DIGIT_POLICY
of R196: the spec's own choice of defaults (D13, D15, D16, D17, D31; log entries 5, 6, 7, 8). -/
def Obligations.ResetHasDefaultValues : Prop :=
  (∀ r, State.reset.reg r = 0) ∧ State.reset.i = 0 ∧ State.reset.pc = 0x0200 ∧ State.reset.sp = 0 ∧
  (∀ k, State.reset.slot k = 0) ∧ State.reset.dt = 0 ∧ State.reset.st = 0 ∧
  (∀ c r, State.reset.fb.pixel c r = false) ∧ State.reset.status = .running ∧
  State.reset.cause.code = 0 ∧ State.reset.info = ⟨0, none, none, none⟩ ∧
  State.reset.fontPolicy = .linear ∧
  State.reset.mem.readBytes 0x000 80 =
    [0xF0, 0x90, 0x90, 0x90, 0xF0, 0x20, 0x60, 0x20, 0x20, 0x70, 0xF0, 0x10, 0xF0, 0x80, 0xF0,
      0xF0, 0x10, 0xF0, 0x10, 0xF0, 0x90, 0x90, 0xF0, 0x10, 0x10, 0xF0, 0x80, 0xF0, 0x10, 0xF0] ++
    [0xF0, 0x80, 0xF0, 0x90, 0xF0, 0xF0, 0x10, 0x20, 0x40, 0x40, 0xF0, 0x90, 0xF0, 0x90, 0xF0,
      0xF0, 0x90, 0xF0, 0x10, 0xF0, 0xF0, 0x90, 0xF0, 0x90, 0x90, 0xE0, 0x90, 0xE0, 0x90, 0xE0] ++
    [0xF0, 0x80, 0x80, 0x80, 0xF0, 0xE0, 0x90, 0x90, 0x90, 0xE0, 0xF0, 0x80, 0xF0, 0x80, 0xF0,
      0xF0, 0x80, 0xF0, 0x80, 0x80] ∧
  ∀ a, 0x050 ≤ a → State.reset.mem.read a = 0x00

/-- A reset with any RESET_STATE applies it, clears the fault state, keeps M and FB and emits no event
(R251, D15). -/
def Obligations.ApplyResetSetsRegisters : Prop :=
  ∀ (s : State) (r : ResetState),
    (∀ x : RegIdx, (s.applyReset r).reg x = r.v[x.val]) ∧ (s.applyReset r).i = r.i ∧
    (s.applyReset r).pc = r.pc ∧ (s.applyReset r).sp = r.sp ∧
    (∀ k : Fin 16, (s.applyReset r).slot k = r.stack[k.val]) ∧ (s.applyReset r).dt = r.dt ∧
    (s.applyReset r).st = r.st ∧ (s.applyReset r).status = .running ∧
    (s.applyReset r).cause = .none ∧ (s.applyReset r).info = FaultInfo.absent ∧
    Keeps { regs := fun _ => True, index := True, stack := True, dt := True, st := True, status := True }
      s (s.applyReset r)

/-- Power-on fills memory with the given font and fill, clears the display, configures the FONT_DIGIT_POLICY and
applies the RESET_STATE without an event; with the default parameters every byte reads as in the state after
reset (R250, R251, R196; D13, D15, D16, D31). -/
def Obligations.PowerOnBuildsMemory : Prop :=
  (∀ (s : State) (p : PowerOnParams),
    (∀ a (h : a < 80), (s.powerOn p).mem.read a = p.fontTable[a]) ∧
    (∀ a, 80 ≤ a → a < 0x1000 → (s.powerOn p).mem.read a = p.memFill) ∧
    (∀ c r, (s.powerOn p).fb.pixel c r = false) ∧
    (∀ x : RegIdx, (s.powerOn p).reg x = p.resetState.v[x.val]) ∧ (s.powerOn p).i = p.resetState.i ∧
    (s.powerOn p).pc = p.resetState.pc ∧ (s.powerOn p).sp = p.resetState.sp ∧
    (∀ k : Fin 16, (s.powerOn p).slot k = p.resetState.stack[k.val]) ∧
    (s.powerOn p).dt = p.resetState.dt ∧ (s.powerOn p).st = p.resetState.st ∧
    (s.powerOn p).status = .running ∧ (s.powerOn p).cause = .none ∧
    (s.powerOn p).info = FaultInfo.absent ∧ (s.powerOn p).fontPolicy = p.fontDigitPolicy ∧
    (s.powerOn p).mem.wf = true ∧ (s.powerOn p).outputs = s.outputs) ∧
  ∀ (s : State) (a : Nat), a < 0x1000 →
    (s.powerOn PowerOnParams.default).mem.read a = State.reset.mem.read a

/-- A load copies the image to 0x200 onward and changes nothing else, and an image of more than 3584 bytes is
rejected (R69, D23). -/
def Obligations.LoadCopiesImage : Prop :=
  ∀ (s : State) (image : List Byte), s.mem.wf = true →
    (image.length ≤ 3584 → ∃ t, s.load image = some t ∧ t.pc = s.pc ∧
      (∀ k (h : k < image.length), t.mem.read (0x200 + k) = image[k]) ∧
      Keeps { mem := fun a => 0x200 ≤ a ∧ a < 0x200 + image.length } s t) ∧
    (3584 < image.length → s.load image = none ∧ s.handle (.load image) = .next s)

/-! Invariants -/

/-- The state after reset meets both invariants (R37, R49, R55). -/
def Obligations.ResetMeetsInvariants : Prop := Inv State.reset ∧ PcInReach State.reset

/-- Every step keeps the invariant: memory stays canonical, and STATUS, FAULT_CAUSE and FAULT_INFO stay
consistent with each other and with the instruction that faulted (R49, R65, R220, R221, R224, R225, D8, D9). -/
def Obligations.StepKeepsInvariant : Prop := ∀ s t : State, Inv s → step s = .next t → Inv t

/-- Every port event keeps the invariant: power-on, reset, load, tick, and a step with any key and byte
(R12, R253). -/
def Obligations.PortEventsKeepInvariant : Prop :=
  ∀ (s t : State) (e : PortEvent), Inv s → s.handle e = .next t → Inv t

/-- PC never gets beyond 0xFFF + 0xFF and no return address beyond 0x1000 (R37, whose bound the spec
derives). -/
def Obligations.StepKeepsPcInReach : Prop := ∀ s t : State, PcInReach s → step s = .next t → PcInReach t

/-! Whole-machine rules -/

/-- An instruction that does not write the flag leaves VF unchanged unless it names VF as a destination, and
one that writes the flag and completes leaves 0x00 or 0x01 in VF, also when X = 0xF (R31, R32, R33, C1). -/
def Obligations.VfFollowsTheFlagRule : Prop :=
  ∀ (i : Instr) (s t : State), exec i s = .next t →
    (writesFlag i = false → namesDest i 0xF = false → t.reg 0xF = s.reg 0xF) ∧
    (writesFlag i = true → s.status = .running → t.status = .running → t.reg 0xF = 0 ∨ t.reg 0xF = 1)

/-- Memory changes only where FX33 and FX55 store (R61, R70). -/
def Obligations.MemoryChangesOnlyByStores : Prop :=
  ∀ (i : Instr) (s t : State) (a : Nat), exec i s = .next t → ¬ storesTo i s a →
    t.mem.read a = s.mem.read a

/-- Only 00E0 and DXYN change FB, only 2NNN and 00EE the stack, only ANNN, FX1E and FX29 the index, only FX15
DT and only FX18 ST (R38, R39, R41, R42, R44); no instruction changes the configured FONT_DIGIT_POLICY
(log entry 8). -/
def Obligations.StateChangesOnlyByItsWriters : Prop :=
  ∀ (i : Instr) (s t : State), exec i s = .next t →
    ((∃ c r, t.fb.pixel c r ≠ s.fb.pixel c r) → i = .cls ∨ ∃ x y n, i = .drw x y n) ∧
    ((t.sp ≠ s.sp ∨ ∃ k, t.slot k ≠ s.slot k) → i = .ret ∨ ∃ nnn, i = .call nnn) ∧
    (t.i ≠ s.i → (∃ nnn, i = .ldI nnn) ∨ (∃ x, i = .addI x) ∨ ∃ x, i = .ldF x) ∧
    (t.dt ≠ s.dt → ∃ x, i = .ldDtVx x) ∧ (t.st ≠ s.st → ∃ x, i = .ldStVx x) ∧
    t.fontPolicy = s.fontPolicy

/-- A completed 00E0 or DXYN flushes the grid as it stands after it exactly once; a faulting DXYN and every
other instruction emit nothing (R179). -/
def Obligations.FlushOncePerDisplayInstruction : Prop :=
  ∀ (i : Instr) (s t : State), s.status = .running → exec i s = .next t →
    ((i = .cls ∨ ∃ x y n, i = .drw x y n) → t.status = .running → t.outputs = .flush t.fb :: s.outputs) ∧
    (¬ ((i = .cls ∨ ∃ x y n, i = .drw x y n) ∧ t.status = .running) → t.outputs = s.outputs)

/-- The key and the random byte reach the block only through EX9E, EXA1, FX0A and CXNN: any other instruction
answers the same whatever is presented (R12, R237, R238). -/
def Obligations.InputsReachOnlyTheirInstructions : Prop :=
  ∀ (i : Instr) (s t : State) (inp inp' : Inputs),
    (∀ x, i ≠ .skp x ∧ i ≠ .sknp x ∧ i ≠ .ldVxK x) → (∀ x nn, i ≠ .rnd x nn) →
    exec i (s.present inp) = .next (t.present inp) → exec i (s.present inp') = .next (t.present inp')
end

