-- ==== Sys2Proof/Laws/Decode.lean ====
section
/-! SUPPORT. The fields of a word, of an encoded word and of a word that matches a row's mask; the word of
two bytes. -/

namespace Sys2Proof

/-- The views of a word as quotients and remainders (R11). -/
theorem views_toNat (w : Word) :
    (views w).cls.toNat = w.toNat / 4096 ∧ (views w).x.val = w.toNat / 256 % 16 ∧
      (views w).y.val = w.toNat / 16 % 16 ∧ (views w).n.toNat = w.toNat % 16 ∧
      (views w).nn.toNat = w.toNat % 256 ∧ (views w).nnn.toNat = w.toNat % 4096 := by
  have h := w.isLt
  refine ⟨?_, ?_, ?_, ?_, ?_, ?_⟩
  · simp [views, Nat.shiftRight_eq_div_pow]
    omega
  all_goals simp [views, Nat.shiftRight_eq_div_pow]

theorem wordXYN_toNat (c : BitVec 4) (x y : RegIdx) (n : BitVec 4) :
    (wordXYN c x y n).toNat = c.toNat * 4096 + x.val * 256 + y.val * 16 + n.toNat := by
  have hc := c.isLt
  have hn := n.isLt
  simp [wordXYN, u16]
  omega

theorem wordXNN_toNat (c : BitVec 4) (x : RegIdx) (nn : Byte) :
    (wordXNN c x nn).toNat = c.toNat * 4096 + x.val * 256 + nn.toNat := by
  have hc := c.isLt
  have hn := nn.isLt
  simp [wordXNN, u16]
  omega

theorem wordNNN_toNat (c : BitVec 4) (nnn : BitVec 12) :
    (wordNNN c nnn).toNat = c.toNat * 4096 + nnn.toNat := by
  have hc := c.isLt
  have hn := nnn.isLt
  simp [wordNNN, u16]
  omega

/-- The class, X, Y and N of a word built from them. -/
theorem views_wordXYN (c : BitVec 4) (x y : RegIdx) (n : BitVec 4) :
    (views (wordXYN c x y n)).cls = c ∧ (views (wordXYN c x y n)).x = x ∧
      (views (wordXYN c x y n)).y = y ∧ (views (wordXYN c x y n)).n = n := by
  obtain ⟨hc, hx, hy, hn, -, -⟩ := views_toNat (wordXYN c x y n)
  rw [wordXYN_toNat] at hc hx hy hn
  have := c.isLt
  have := n.isLt
  exact ⟨BitVec.eq_of_toNat_eq (by omega), Fin.ext (by omega), Fin.ext (by omega),
    BitVec.eq_of_toNat_eq (by omega)⟩

/-- The class, X and NN of a word built from them. -/
theorem views_wordXNN (c : BitVec 4) (x : RegIdx) (nn : Byte) :
    (views (wordXNN c x nn)).cls = c ∧ (views (wordXNN c x nn)).x = x ∧
      (views (wordXNN c x nn)).nn = nn := by
  obtain ⟨hc, hx, -, -, hn, -⟩ := views_toNat (wordXNN c x nn)
  rw [wordXNN_toNat] at hc hx hn
  have := c.isLt
  have := nn.isLt
  exact ⟨BitVec.eq_of_toNat_eq (by omega), Fin.ext (by omega), BitVec.eq_of_toNat_eq (by omega)⟩

/-- The class and NNN of a word built from them. -/
theorem views_wordNNN (c : BitVec 4) (nnn : BitVec 12) :
    (views (wordNNN c nnn)).cls = c ∧ (views (wordNNN c nnn)).nnn = nnn := by
  obtain ⟨hc, -, -, -, -, hn⟩ := views_toNat (wordNNN c nnn)
  rw [wordNNN_toNat] at hc hn
  have := c.isLt
  have := nnn.isLt
  exact ⟨BitVec.eq_of_toNat_eq (by omega), BitVec.eq_of_toNat_eq (by omega)⟩

/-- A word that matches a row has the row's fixed bits: bit by bit, where the mask is set the word and the
pattern agree (R101). -/
theorem OpcodeRow.bit_of_matches (r : OpcodeRow) (w : Word) (h : r.matchesWord w = true) (k : Nat)
    (hk : r.mask.getLsbD k = true) : w.getLsbD k = r.pattern.getLsbD k := by
  have h' : w &&& r.mask = r.pattern := by simpa [OpcodeRow.matchesWord] using h
  simpa [hk] using congrArg (fun z : Word => z.getLsbD k) h'

/-- The bits fixed by the masks of opcode_table.json, as fields (R101). -/
theorem and_mask_class (w : Word) : w &&& 0xF000#16 = (views w).cls.setWidth 16 <<< 12 := by
  apply BitVec.eq_of_getLsbD_eq
  intro k hk
  interval_cases k <;> simp [views]

theorem and_mask_class_n (w : Word) :
    w &&& 0xF00F#16 = (views w).cls.setWidth 16 <<< 12 ||| (views w).n.setWidth 16 := by
  apply BitVec.eq_of_getLsbD_eq
  intro k hk
  interval_cases k <;> simp [views]

theorem and_mask_class_nn (w : Word) :
    w &&& 0xF0FF#16 = (views w).cls.setWidth 16 <<< 12 ||| (views w).nn.setWidth 16 := by
  apply BitVec.eq_of_getLsbD_eq
  intro k hk
  interval_cases k <;> simp [views]

/-- The fields a row's mask fixes, read off its pattern: a mask of the class (R95, R101). -/
theorem views_of_mask_class {w p : Word} (h : w &&& 0xF000#16 = p) : (views w).cls = p.extractLsb' 12 4 := by
  subst h
  apply BitVec.eq_of_getLsbD_eq
  intro k hk
  interval_cases k <;> simp [views]

/-- The same for a mask of the class and N. -/
theorem views_of_mask_class_n {w p : Word} (h : w &&& 0xF00F#16 = p) :
    (views w).cls = p.extractLsb' 12 4 ∧ (views w).n = p.extractLsb' 0 4 := by
  subst h
  constructor <;> apply BitVec.eq_of_getLsbD_eq <;> intro k hk <;> interval_cases k <;> simp [views]

/-- The same for a mask of the class and NN. -/
theorem views_of_mask_class_nn {w p : Word} (h : w &&& 0xF0FF#16 = p) :
    (views w).cls = p.extractLsb' 12 4 ∧ (views w).nn = p.extractLsb' 0 8 := by
  subst h
  constructor <;> apply BitVec.eq_of_getLsbD_eq <;> intro k hk <;> interval_cases k <;> simp [views]

/-- A word built from fields matches exactly the rows with its fixed fields. -/
theorem wordNNN_and_class (c : BitVec 4) (nnn : BitVec 12) :
    wordNNN c nnn &&& 0xF000#16 = c.setWidth 16 <<< 12 := by
  rw [and_mask_class, (views_wordNNN c nnn).1]

theorem wordXNN_and_class (c : BitVec 4) (x : RegIdx) (nn : Byte) :
    wordXNN c x nn &&& 0xF000#16 = c.setWidth 16 <<< 12 := by
  rw [and_mask_class, (views_wordXNN c x nn).1]

theorem wordXYN_and_class (c : BitVec 4) (x y : RegIdx) (n : BitVec 4) :
    wordXYN c x y n &&& 0xF000#16 = c.setWidth 16 <<< 12 := by
  rw [and_mask_class, (views_wordXYN c x y n).1]

theorem wordXYN_and_class_n (c : BitVec 4) (x y : RegIdx) (n : BitVec 4) :
    wordXYN c x y n &&& 0xF00F#16 = c.setWidth 16 <<< 12 ||| n.setWidth 16 := by
  rw [and_mask_class_n, (views_wordXYN c x y n).1, (views_wordXYN c x y n).2.2.2]

theorem wordXNN_and_class_nn (c : BitVec 4) (x : RegIdx) (nn : Byte) :
    wordXNN c x nn &&& 0xF0FF#16 = c.setWidth 16 <<< 12 ||| nn.setWidth 16 := by
  rw [and_mask_class_nn, (views_wordXNN c x nn).1, (views_wordXNN c x nn).2.2]

/-- Laying a word out in memory order and reading it back gives the word (R63). -/
theorem wordOfBytes_bytes (w : Word) : wordOfBytes (w.extractLsb' 8 8) (w.extractLsb' 0 8) = w := by
  have h := w.isLt
  apply BitVec.eq_of_toNat_eq
  simp [wordOfBytes, u16, Nat.shiftRight_eq_div_pow]
  omega

/-- Decoding the two bytes of a word is decoding the word. -/
theorem decodeBytes_bytesOfWord (w : Word) :
    decodeBytes (bytesOfWord w) =
      match decode w with
      | some i => .ok i
      | none => .error (.unknownOpcode w) := by
  have h : decodeBytes (bytesOfWord w) = match decode (wordOfBytes (w.extractLsb' 8 8) (w.extractLsb' 0 8)) with
      | some i => .ok i
      | none => .error (.unknownOpcode (wordOfBytes (w.extractLsb' 8 8) (w.extractLsb' 0 8))) := rfl
  exact h.trans (by rw [wordOfBytes_bytes])

end Sys2Proof
end

