-- ==== Sys2Proof/Laws/Memory.lean ====
section
/-! SUPPORT. Memory: a write reads back, leaves every other address alone, and keeps the canonical form. -/

namespace Sys2Proof.Machine

theorem Memory.wf_cons (a : Nat) (b : Byte) (rest : Memory) :
    Memory.wf ((a, b) :: rest) = true ↔
      a < Config.memSize ∧ b ≠ Config.initialByte a ∧ (∀ c ∈ rest, a < c.1) ∧ rest.wf = true := by
  simp [Memory.wf, and_assoc]

theorem State.reset_mem_wf : State.reset.mem.wf = true := rfl

/-- An address below every listed one reads as its initial content. -/
theorem Memory.read_of_lt (m : Memory) (a : Nat) (h : ∀ c ∈ m, a < c.1) : m.read a = Config.initialByte a := by
  induction m with
  | nil => rfl
  | cons c rest ih =>
    obtain ⟨k, b⟩ := c
    have hk : a < k := h (k, b) List.mem_cons_self
    rw [Memory.read, if_neg (by omega), ih fun d hd => h d (List.mem_cons_of_mem _ hd)]

/-- Reading another address is not affected by a write, in canonical form or not (R70). -/
theorem Memory.read_write_other (m : Memory) (a a' : Nat) (b : Byte) (h : a' ≠ a) :
    (m.write a b).read a' = m.read a' := by
  induction m with
  | nil => by_cases hb : b = Config.initialByte a <;> simp [Memory.write, Memory.read, hb, h]
  | cons c rest ih =>
    obtain ⟨k, v⟩ := c
    simp only [Memory.write]
    split_ifs with h1 h2 h3 h4 <;> simp_all [Memory.read]

/-- A write reads back where memory is in canonical form. -/
theorem Memory.read_write_self (m : Memory) (a : Nat) (b : Byte) (hw : m.wf = true) :
    (m.write a b).read a = b := by
  induction m with
  | nil => by_cases hb : b = Config.initialByte a <;> simp [Memory.write, Memory.read, hb]
  | cons c rest ih =>
    obtain ⟨k, v⟩ := c
    obtain ⟨_, _, hlt, hrest⟩ := (Memory.wf_cons k v rest).mp hw
    simp only [Memory.write]
    split_ifs with h1 h2 h3 h4
    · rw [Memory.read, if_neg (by omega), h2, Memory.read_of_lt]
      exact fun d hd => h1.trans (hlt d hd)
    · simp [Memory.read]
    · subst h3
      rw [h4, Memory.read_of_lt rest a hlt]
    · simp [Memory.read]
    · rw [Memory.read, if_neg h3, ih hrest]

/-- The addresses a write can list are those listed before and its own. -/
theorem Memory.mem_write (m : Memory) (a : Nat) (b : Byte) (c : Host.Cell) (h : c ∈ m.write a b) :
    c ∈ m ∨ c = (a, b) := by
  induction m with
  | nil => by_cases hb : b = Config.initialByte a <;> simp_all [Memory.write]
  | cons d rest ih =>
    obtain ⟨k, v⟩ := d
    simp only [Memory.write] at h
    split_ifs at h with h1 h2 h3 h4 <;> simp_all <;> tauto

/-- A write below 0x1000 keeps the canonical form. -/
theorem Memory.wf_write (m : Memory) (a : Nat) (b : Byte) (ha : a < Config.memSize) (hw : m.wf = true) :
    (m.write a b).wf = true := by
  induction m with
  | nil => by_cases hb : b = Config.initialByte a <;> simp [Memory.write, Memory.wf, hb, ha]
  | cons c rest ih =>
    obtain ⟨k, v⟩ := c
    obtain ⟨hk, hv, hlt, hrest⟩ := (Memory.wf_cons k v rest).mp hw
    simp only [Memory.write]
    split_ifs with h1 h2 h3 h4
    · exact hw
    · rw [Memory.wf_cons]
      refine ⟨ha, h2, ?_, hw⟩
      intro d hd
      rcases List.mem_cons.mp hd with rfl | hd
      · exact h1
      · exact h1.trans (hlt d hd)
    · exact hrest
    · rw [Memory.wf_cons]
      exact ⟨ha, h4, h3 ▸ hlt, hrest⟩
    · rw [Memory.wf_cons]
      refine ⟨hk, hv, ?_, ih hrest⟩
      intro d hd
      rcases Memory.mem_write rest a b d hd with hd | rfl
      · exact hlt d hd
      · show k < a
        omega

/-- Bytes written at consecutive addresses keep the canonical form where the range is in memory. -/
theorem Memory.wf_writeBytes (m : Memory) (base : Nat) (bs : List Byte)
    (h : base + bs.length ≤ Config.memSize) (hw : m.wf = true) : (m.writeBytes base bs).wf = true := by
  induction bs generalizing m base with
  | nil => exact hw
  | cons b bs ih =>
    simp only [List.length_cons] at h
    exact ih _ _ (by omega) (Memory.wf_write m base b (by omega) hw)

/-- Reading outside the written range is not affected. -/
theorem Memory.read_writeBytes_other (m : Memory) (base a : Nat) (bs : List Byte)
    (h : ¬ (base ≤ a ∧ a < base + bs.length)) : (m.writeBytes base bs).read a = m.read a := by
  induction bs generalizing m base with
  | nil => rfl
  | cons b bs ih =>
    simp only [List.length_cons] at h
    rw [Memory.writeBytes, ih _ _ (by omega), Memory.read_write_other]
    rintro rfl
    omega

/-- Reading inside the written range gives the byte written there. -/
theorem Memory.read_writeBytes_mem (m : Memory) (base k : Nat) (bs : List Byte) (hk : k < bs.length)
    (hr : base + bs.length ≤ Config.memSize) (hw : m.wf = true) :
    (m.writeBytes base bs).read (base + k) = bs[k] := by
  induction bs generalizing m base k with
  | nil => simp at hk
  | cons b bs ih =>
    simp only [List.length_cons] at hr hk
    have hw' := Memory.wf_write m base b (by omega) hw
    cases k with
    | zero =>
      rw [Memory.writeBytes, Memory.read_writeBytes_other _ _ _ _ (by omega)]
      exact Memory.read_write_self m base b hw
    | succ k =>
      have h := ih (m.write base b) (base + 1) k (by omega) (by omega) hw'
      rw [Memory.writeBytes, show base + (k + 1) = base + 1 + k by omega, h]
      simp

@[simp] theorem Memory.readBytes_length (m : Memory) (base n : Nat) : (m.readBytes base n).length = n := by
  simp [Memory.readBytes]

theorem Memory.readBytes_getElem (m : Memory) (base n k : Nat) (h : k < (m.readBytes base n).length) :
    (m.readBytes base n)[k] = m.read (base + k) := by
  simp [Memory.readBytes]

theorem Memory.readBytes_two (m : Memory) (base : Nat) :
    m.readBytes base 2 = [m.read base, m.read (base + 1)] := rfl

end Sys2Proof.Machine
end

