-- ==== Sys2Proof/Laws/State.lean ====
section
/-! SUPPORT. One lemma per field per update of the state, so that no proof unfolds a record update, and
the register file's reads after writes. -/

namespace Sys2Proof.Machine

@[simp] theorem State.setReg_v (s : State) (x : RegIdx) (b : Byte) : (s.setReg x b).v = s.v.set x.val b := rfl
@[simp] theorem State.setReg_i (s : State) (x : RegIdx) (b : Byte) : (s.setReg x b).i = s.i := rfl
@[simp] theorem State.setReg_pc (s : State) (x : RegIdx) (b : Byte) : (s.setReg x b).pc = s.pc := rfl
@[simp] theorem State.setReg_sp (s : State) (x : RegIdx) (b : Byte) : (s.setReg x b).sp = s.sp := rfl
@[simp] theorem State.setReg_stack (s : State) (x : RegIdx) (b : Byte) : (s.setReg x b).stack = s.stack := rfl
@[simp] theorem State.setReg_dt (s : State) (x : RegIdx) (b : Byte) : (s.setReg x b).dt = s.dt := rfl
@[simp] theorem State.setReg_st (s : State) (x : RegIdx) (b : Byte) : (s.setReg x b).st = s.st := rfl
@[simp] theorem State.setReg_mem (s : State) (x : RegIdx) (b : Byte) : (s.setReg x b).mem = s.mem := rfl
@[simp] theorem State.setReg_fb (s : State) (x : RegIdx) (b : Byte) : (s.setReg x b).fb = s.fb := rfl
@[simp] theorem State.setReg_status (s : State) (x : RegIdx) (b : Byte) : (s.setReg x b).status = s.status := rfl
@[simp] theorem State.setReg_cause (s : State) (x : RegIdx) (b : Byte) : (s.setReg x b).cause = s.cause := rfl
@[simp] theorem State.setReg_info (s : State) (x : RegIdx) (b : Byte) : (s.setReg x b).info = s.info := rfl
@[simp] theorem State.setReg_fontPolicy (s : State) (x : RegIdx) (b : Byte) : (s.setReg x b).fontPolicy = s.fontPolicy := rfl
@[simp] theorem State.setReg_inputs (s : State) (x : RegIdx) (b : Byte) : (s.setReg x b).inputs = s.inputs := rfl
@[simp] theorem State.setReg_clock (s : State) (x : RegIdx) (b : Byte) : (s.setReg x b).clock = s.clock := rfl
@[simp] theorem State.setReg_outputs (s : State) (x : RegIdx) (b : Byte) : (s.setReg x b).outputs = s.outputs := rfl

@[simp] theorem State.setFlag_v (s : State) (f : Bool) : (s.setFlag f).v = s.v.set 15 (if f then 0x01 else 0x00) := rfl
@[simp] theorem State.setFlag_i (s : State) (f : Bool) : (s.setFlag f).i = s.i := rfl
@[simp] theorem State.setFlag_pc (s : State) (f : Bool) : (s.setFlag f).pc = s.pc := rfl
@[simp] theorem State.setFlag_sp (s : State) (f : Bool) : (s.setFlag f).sp = s.sp := rfl
@[simp] theorem State.setFlag_stack (s : State) (f : Bool) : (s.setFlag f).stack = s.stack := rfl
@[simp] theorem State.setFlag_dt (s : State) (f : Bool) : (s.setFlag f).dt = s.dt := rfl
@[simp] theorem State.setFlag_st (s : State) (f : Bool) : (s.setFlag f).st = s.st := rfl
@[simp] theorem State.setFlag_mem (s : State) (f : Bool) : (s.setFlag f).mem = s.mem := rfl
@[simp] theorem State.setFlag_fb (s : State) (f : Bool) : (s.setFlag f).fb = s.fb := rfl
@[simp] theorem State.setFlag_status (s : State) (f : Bool) : (s.setFlag f).status = s.status := rfl
@[simp] theorem State.setFlag_cause (s : State) (f : Bool) : (s.setFlag f).cause = s.cause := rfl
@[simp] theorem State.setFlag_info (s : State) (f : Bool) : (s.setFlag f).info = s.info := rfl
@[simp] theorem State.setFlag_fontPolicy (s : State) (f : Bool) : (s.setFlag f).fontPolicy = s.fontPolicy := rfl
@[simp] theorem State.setFlag_inputs (s : State) (f : Bool) : (s.setFlag f).inputs = s.inputs := rfl
@[simp] theorem State.setFlag_clock (s : State) (f : Bool) : (s.setFlag f).clock = s.clock := rfl
@[simp] theorem State.setFlag_outputs (s : State) (f : Bool) : (s.setFlag f).outputs = s.outputs := rfl

@[simp] theorem State.setRegs_v (s : State) (v : Vector Byte 16) : (s.setRegs v).v = v := rfl
@[simp] theorem State.setRegs_i (s : State) (v : Vector Byte 16) : (s.setRegs v).i = s.i := rfl
@[simp] theorem State.setRegs_pc (s : State) (v : Vector Byte 16) : (s.setRegs v).pc = s.pc := rfl
@[simp] theorem State.setRegs_sp (s : State) (v : Vector Byte 16) : (s.setRegs v).sp = s.sp := rfl
@[simp] theorem State.setRegs_stack (s : State) (v : Vector Byte 16) : (s.setRegs v).stack = s.stack := rfl
@[simp] theorem State.setRegs_dt (s : State) (v : Vector Byte 16) : (s.setRegs v).dt = s.dt := rfl
@[simp] theorem State.setRegs_st (s : State) (v : Vector Byte 16) : (s.setRegs v).st = s.st := rfl
@[simp] theorem State.setRegs_mem (s : State) (v : Vector Byte 16) : (s.setRegs v).mem = s.mem := rfl
@[simp] theorem State.setRegs_fb (s : State) (v : Vector Byte 16) : (s.setRegs v).fb = s.fb := rfl
@[simp] theorem State.setRegs_status (s : State) (v : Vector Byte 16) : (s.setRegs v).status = s.status := rfl
@[simp] theorem State.setRegs_cause (s : State) (v : Vector Byte 16) : (s.setRegs v).cause = s.cause := rfl
@[simp] theorem State.setRegs_info (s : State) (v : Vector Byte 16) : (s.setRegs v).info = s.info := rfl
@[simp] theorem State.setRegs_fontPolicy (s : State) (v : Vector Byte 16) : (s.setRegs v).fontPolicy = s.fontPolicy := rfl
@[simp] theorem State.setRegs_inputs (s : State) (v : Vector Byte 16) : (s.setRegs v).inputs = s.inputs := rfl
@[simp] theorem State.setRegs_clock (s : State) (v : Vector Byte 16) : (s.setRegs v).clock = s.clock := rfl
@[simp] theorem State.setRegs_outputs (s : State) (v : Vector Byte 16) : (s.setRegs v).outputs = s.outputs := rfl

@[simp] theorem State.setPc_v (s : State) (p : Word) : (s.setPc p).v = s.v := rfl
@[simp] theorem State.setPc_i (s : State) (p : Word) : (s.setPc p).i = s.i := rfl
@[simp] theorem State.setPc_pc (s : State) (p : Word) : (s.setPc p).pc = p := rfl
@[simp] theorem State.setPc_sp (s : State) (p : Word) : (s.setPc p).sp = s.sp := rfl
@[simp] theorem State.setPc_stack (s : State) (p : Word) : (s.setPc p).stack = s.stack := rfl
@[simp] theorem State.setPc_dt (s : State) (p : Word) : (s.setPc p).dt = s.dt := rfl
@[simp] theorem State.setPc_st (s : State) (p : Word) : (s.setPc p).st = s.st := rfl
@[simp] theorem State.setPc_mem (s : State) (p : Word) : (s.setPc p).mem = s.mem := rfl
@[simp] theorem State.setPc_fb (s : State) (p : Word) : (s.setPc p).fb = s.fb := rfl
@[simp] theorem State.setPc_status (s : State) (p : Word) : (s.setPc p).status = s.status := rfl
@[simp] theorem State.setPc_cause (s : State) (p : Word) : (s.setPc p).cause = s.cause := rfl
@[simp] theorem State.setPc_info (s : State) (p : Word) : (s.setPc p).info = s.info := rfl
@[simp] theorem State.setPc_fontPolicy (s : State) (p : Word) : (s.setPc p).fontPolicy = s.fontPolicy := rfl
@[simp] theorem State.setPc_inputs (s : State) (p : Word) : (s.setPc p).inputs = s.inputs := rfl
@[simp] theorem State.setPc_clock (s : State) (p : Word) : (s.setPc p).clock = s.clock := rfl
@[simp] theorem State.setPc_outputs (s : State) (p : Word) : (s.setPc p).outputs = s.outputs := rfl

@[simp] theorem State.advance_v (s : State) : (s.advance).v = s.v := rfl
@[simp] theorem State.advance_i (s : State) : (s.advance).i = s.i := rfl
@[simp] theorem State.advance_pc (s : State) : (s.advance).pc = s.pc + 2 := rfl
@[simp] theorem State.advance_sp (s : State) : (s.advance).sp = s.sp := rfl
@[simp] theorem State.advance_stack (s : State) : (s.advance).stack = s.stack := rfl
@[simp] theorem State.advance_dt (s : State) : (s.advance).dt = s.dt := rfl
@[simp] theorem State.advance_st (s : State) : (s.advance).st = s.st := rfl
@[simp] theorem State.advance_mem (s : State) : (s.advance).mem = s.mem := rfl
@[simp] theorem State.advance_fb (s : State) : (s.advance).fb = s.fb := rfl
@[simp] theorem State.advance_status (s : State) : (s.advance).status = s.status := rfl
@[simp] theorem State.advance_cause (s : State) : (s.advance).cause = s.cause := rfl
@[simp] theorem State.advance_info (s : State) : (s.advance).info = s.info := rfl
@[simp] theorem State.advance_fontPolicy (s : State) : (s.advance).fontPolicy = s.fontPolicy := rfl
@[simp] theorem State.advance_inputs (s : State) : (s.advance).inputs = s.inputs := rfl
@[simp] theorem State.advance_clock (s : State) : (s.advance).clock = s.clock := rfl
@[simp] theorem State.advance_outputs (s : State) : (s.advance).outputs = s.outputs := rfl

@[simp] theorem State.skipIf_v (s : State) (c : Bool) : (s.skipIf c).v = s.v := rfl
@[simp] theorem State.skipIf_i (s : State) (c : Bool) : (s.skipIf c).i = s.i := rfl
@[simp] theorem State.skipIf_pc (s : State) (c : Bool) : (s.skipIf c).pc = if c then s.pc + 4 else s.pc + 2 := rfl
@[simp] theorem State.skipIf_sp (s : State) (c : Bool) : (s.skipIf c).sp = s.sp := rfl
@[simp] theorem State.skipIf_stack (s : State) (c : Bool) : (s.skipIf c).stack = s.stack := rfl
@[simp] theorem State.skipIf_dt (s : State) (c : Bool) : (s.skipIf c).dt = s.dt := rfl
@[simp] theorem State.skipIf_st (s : State) (c : Bool) : (s.skipIf c).st = s.st := rfl
@[simp] theorem State.skipIf_mem (s : State) (c : Bool) : (s.skipIf c).mem = s.mem := rfl
@[simp] theorem State.skipIf_fb (s : State) (c : Bool) : (s.skipIf c).fb = s.fb := rfl
@[simp] theorem State.skipIf_status (s : State) (c : Bool) : (s.skipIf c).status = s.status := rfl
@[simp] theorem State.skipIf_cause (s : State) (c : Bool) : (s.skipIf c).cause = s.cause := rfl
@[simp] theorem State.skipIf_info (s : State) (c : Bool) : (s.skipIf c).info = s.info := rfl
@[simp] theorem State.skipIf_fontPolicy (s : State) (c : Bool) : (s.skipIf c).fontPolicy = s.fontPolicy := rfl
@[simp] theorem State.skipIf_inputs (s : State) (c : Bool) : (s.skipIf c).inputs = s.inputs := rfl
@[simp] theorem State.skipIf_clock (s : State) (c : Bool) : (s.skipIf c).clock = s.clock := rfl
@[simp] theorem State.skipIf_outputs (s : State) (c : Bool) : (s.skipIf c).outputs = s.outputs := rfl

@[simp] theorem State.setI_v (s : State) (a : Word) : (s.setI a).v = s.v := rfl
@[simp] theorem State.setI_i (s : State) (a : Word) : (s.setI a).i = a := rfl
@[simp] theorem State.setI_pc (s : State) (a : Word) : (s.setI a).pc = s.pc := rfl
@[simp] theorem State.setI_sp (s : State) (a : Word) : (s.setI a).sp = s.sp := rfl
@[simp] theorem State.setI_stack (s : State) (a : Word) : (s.setI a).stack = s.stack := rfl
@[simp] theorem State.setI_dt (s : State) (a : Word) : (s.setI a).dt = s.dt := rfl
@[simp] theorem State.setI_st (s : State) (a : Word) : (s.setI a).st = s.st := rfl
@[simp] theorem State.setI_mem (s : State) (a : Word) : (s.setI a).mem = s.mem := rfl
@[simp] theorem State.setI_fb (s : State) (a : Word) : (s.setI a).fb = s.fb := rfl
@[simp] theorem State.setI_status (s : State) (a : Word) : (s.setI a).status = s.status := rfl
@[simp] theorem State.setI_cause (s : State) (a : Word) : (s.setI a).cause = s.cause := rfl
@[simp] theorem State.setI_info (s : State) (a : Word) : (s.setI a).info = s.info := rfl
@[simp] theorem State.setI_fontPolicy (s : State) (a : Word) : (s.setI a).fontPolicy = s.fontPolicy := rfl
@[simp] theorem State.setI_inputs (s : State) (a : Word) : (s.setI a).inputs = s.inputs := rfl
@[simp] theorem State.setI_clock (s : State) (a : Word) : (s.setI a).clock = s.clock := rfl
@[simp] theorem State.setI_outputs (s : State) (a : Word) : (s.setI a).outputs = s.outputs := rfl

@[simp] theorem State.setDt_v (s : State) (b : Byte) : (s.setDt b).v = s.v := rfl
@[simp] theorem State.setDt_i (s : State) (b : Byte) : (s.setDt b).i = s.i := rfl
@[simp] theorem State.setDt_pc (s : State) (b : Byte) : (s.setDt b).pc = s.pc := rfl
@[simp] theorem State.setDt_sp (s : State) (b : Byte) : (s.setDt b).sp = s.sp := rfl
@[simp] theorem State.setDt_stack (s : State) (b : Byte) : (s.setDt b).stack = s.stack := rfl
@[simp] theorem State.setDt_dt (s : State) (b : Byte) : (s.setDt b).dt = b := rfl
@[simp] theorem State.setDt_st (s : State) (b : Byte) : (s.setDt b).st = s.st := rfl
@[simp] theorem State.setDt_mem (s : State) (b : Byte) : (s.setDt b).mem = s.mem := rfl
@[simp] theorem State.setDt_fb (s : State) (b : Byte) : (s.setDt b).fb = s.fb := rfl
@[simp] theorem State.setDt_status (s : State) (b : Byte) : (s.setDt b).status = s.status := rfl
@[simp] theorem State.setDt_cause (s : State) (b : Byte) : (s.setDt b).cause = s.cause := rfl
@[simp] theorem State.setDt_info (s : State) (b : Byte) : (s.setDt b).info = s.info := rfl
@[simp] theorem State.setDt_fontPolicy (s : State) (b : Byte) : (s.setDt b).fontPolicy = s.fontPolicy := rfl
@[simp] theorem State.setDt_inputs (s : State) (b : Byte) : (s.setDt b).inputs = s.inputs := rfl
@[simp] theorem State.setDt_clock (s : State) (b : Byte) : (s.setDt b).clock = s.clock := rfl
@[simp] theorem State.setDt_outputs (s : State) (b : Byte) : (s.setDt b).outputs = s.outputs := rfl

@[simp] theorem State.setSt_v (s : State) (b : Byte) : (s.setSt b).v = s.v := rfl
@[simp] theorem State.setSt_i (s : State) (b : Byte) : (s.setSt b).i = s.i := rfl
@[simp] theorem State.setSt_pc (s : State) (b : Byte) : (s.setSt b).pc = s.pc := rfl
@[simp] theorem State.setSt_sp (s : State) (b : Byte) : (s.setSt b).sp = s.sp := rfl
@[simp] theorem State.setSt_stack (s : State) (b : Byte) : (s.setSt b).stack = s.stack := rfl
@[simp] theorem State.setSt_dt (s : State) (b : Byte) : (s.setSt b).dt = s.dt := rfl
@[simp] theorem State.setSt_st (s : State) (b : Byte) : (s.setSt b).st = b := rfl
@[simp] theorem State.setSt_mem (s : State) (b : Byte) : (s.setSt b).mem = s.mem := rfl
@[simp] theorem State.setSt_fb (s : State) (b : Byte) : (s.setSt b).fb = s.fb := rfl
@[simp] theorem State.setSt_status (s : State) (b : Byte) : (s.setSt b).status = s.status := rfl
@[simp] theorem State.setSt_cause (s : State) (b : Byte) : (s.setSt b).cause = s.cause := rfl
@[simp] theorem State.setSt_info (s : State) (b : Byte) : (s.setSt b).info = s.info := rfl
@[simp] theorem State.setSt_fontPolicy (s : State) (b : Byte) : (s.setSt b).fontPolicy = s.fontPolicy := rfl
@[simp] theorem State.setSt_inputs (s : State) (b : Byte) : (s.setSt b).inputs = s.inputs := rfl
@[simp] theorem State.setSt_clock (s : State) (b : Byte) : (s.setSt b).clock = s.clock := rfl
@[simp] theorem State.setSt_outputs (s : State) (b : Byte) : (s.setSt b).outputs = s.outputs := rfl

@[simp] theorem State.setMem_v (s : State) (m : Memory) : (s.setMem m).v = s.v := rfl
@[simp] theorem State.setMem_i (s : State) (m : Memory) : (s.setMem m).i = s.i := rfl
@[simp] theorem State.setMem_pc (s : State) (m : Memory) : (s.setMem m).pc = s.pc := rfl
@[simp] theorem State.setMem_sp (s : State) (m : Memory) : (s.setMem m).sp = s.sp := rfl
@[simp] theorem State.setMem_stack (s : State) (m : Memory) : (s.setMem m).stack = s.stack := rfl
@[simp] theorem State.setMem_dt (s : State) (m : Memory) : (s.setMem m).dt = s.dt := rfl
@[simp] theorem State.setMem_st (s : State) (m : Memory) : (s.setMem m).st = s.st := rfl
@[simp] theorem State.setMem_mem (s : State) (m : Memory) : (s.setMem m).mem = m := rfl
@[simp] theorem State.setMem_fb (s : State) (m : Memory) : (s.setMem m).fb = s.fb := rfl
@[simp] theorem State.setMem_status (s : State) (m : Memory) : (s.setMem m).status = s.status := rfl
@[simp] theorem State.setMem_cause (s : State) (m : Memory) : (s.setMem m).cause = s.cause := rfl
@[simp] theorem State.setMem_info (s : State) (m : Memory) : (s.setMem m).info = s.info := rfl
@[simp] theorem State.setMem_fontPolicy (s : State) (m : Memory) : (s.setMem m).fontPolicy = s.fontPolicy := rfl
@[simp] theorem State.setMem_inputs (s : State) (m : Memory) : (s.setMem m).inputs = s.inputs := rfl
@[simp] theorem State.setMem_clock (s : State) (m : Memory) : (s.setMem m).clock = s.clock := rfl
@[simp] theorem State.setMem_outputs (s : State) (m : Memory) : (s.setMem m).outputs = s.outputs := rfl

@[simp] theorem State.setFb_v (s : State) (d : Display) : (s.setFb d).v = s.v := rfl
@[simp] theorem State.setFb_i (s : State) (d : Display) : (s.setFb d).i = s.i := rfl
@[simp] theorem State.setFb_pc (s : State) (d : Display) : (s.setFb d).pc = s.pc := rfl
@[simp] theorem State.setFb_sp (s : State) (d : Display) : (s.setFb d).sp = s.sp := rfl
@[simp] theorem State.setFb_stack (s : State) (d : Display) : (s.setFb d).stack = s.stack := rfl
@[simp] theorem State.setFb_dt (s : State) (d : Display) : (s.setFb d).dt = s.dt := rfl
@[simp] theorem State.setFb_st (s : State) (d : Display) : (s.setFb d).st = s.st := rfl
@[simp] theorem State.setFb_mem (s : State) (d : Display) : (s.setFb d).mem = s.mem := rfl
@[simp] theorem State.setFb_fb (s : State) (d : Display) : (s.setFb d).fb = d := rfl
@[simp] theorem State.setFb_status (s : State) (d : Display) : (s.setFb d).status = s.status := rfl
@[simp] theorem State.setFb_cause (s : State) (d : Display) : (s.setFb d).cause = s.cause := rfl
@[simp] theorem State.setFb_info (s : State) (d : Display) : (s.setFb d).info = s.info := rfl
@[simp] theorem State.setFb_fontPolicy (s : State) (d : Display) : (s.setFb d).fontPolicy = s.fontPolicy := rfl
@[simp] theorem State.setFb_inputs (s : State) (d : Display) : (s.setFb d).inputs = s.inputs := rfl
@[simp] theorem State.setFb_clock (s : State) (d : Display) : (s.setFb d).clock = s.clock := rfl
@[simp] theorem State.setFb_outputs (s : State) (d : Display) : (s.setFb d).outputs = s.outputs := rfl

@[simp] theorem State.setFontPolicy_v (s : State) (p : FontDigitPolicy) : (s.setFontPolicy p).v = s.v := rfl
@[simp] theorem State.setFontPolicy_i (s : State) (p : FontDigitPolicy) : (s.setFontPolicy p).i = s.i := rfl
@[simp] theorem State.setFontPolicy_pc (s : State) (p : FontDigitPolicy) : (s.setFontPolicy p).pc = s.pc := rfl
@[simp] theorem State.setFontPolicy_sp (s : State) (p : FontDigitPolicy) : (s.setFontPolicy p).sp = s.sp := rfl
@[simp] theorem State.setFontPolicy_stack (s : State) (p : FontDigitPolicy) : (s.setFontPolicy p).stack = s.stack := rfl
@[simp] theorem State.setFontPolicy_dt (s : State) (p : FontDigitPolicy) : (s.setFontPolicy p).dt = s.dt := rfl
@[simp] theorem State.setFontPolicy_st (s : State) (p : FontDigitPolicy) : (s.setFontPolicy p).st = s.st := rfl
@[simp] theorem State.setFontPolicy_mem (s : State) (p : FontDigitPolicy) : (s.setFontPolicy p).mem = s.mem := rfl
@[simp] theorem State.setFontPolicy_fb (s : State) (p : FontDigitPolicy) : (s.setFontPolicy p).fb = s.fb := rfl
@[simp] theorem State.setFontPolicy_status (s : State) (p : FontDigitPolicy) : (s.setFontPolicy p).status = s.status := rfl
@[simp] theorem State.setFontPolicy_cause (s : State) (p : FontDigitPolicy) : (s.setFontPolicy p).cause = s.cause := rfl
@[simp] theorem State.setFontPolicy_info (s : State) (p : FontDigitPolicy) : (s.setFontPolicy p).info = s.info := rfl
@[simp] theorem State.setFontPolicy_fontPolicy (s : State) (p : FontDigitPolicy) : (s.setFontPolicy p).fontPolicy = p := rfl
@[simp] theorem State.setFontPolicy_inputs (s : State) (p : FontDigitPolicy) : (s.setFontPolicy p).inputs = s.inputs := rfl
@[simp] theorem State.setFontPolicy_clock (s : State) (p : FontDigitPolicy) : (s.setFontPolicy p).clock = s.clock := rfl
@[simp] theorem State.setFontPolicy_outputs (s : State) (p : FontDigitPolicy) : (s.setFontPolicy p).outputs = s.outputs := rfl

@[simp] theorem State.emit_v (s : State) (e : OutEvent) : (s.emit e).v = s.v := rfl
@[simp] theorem State.emit_i (s : State) (e : OutEvent) : (s.emit e).i = s.i := rfl
@[simp] theorem State.emit_pc (s : State) (e : OutEvent) : (s.emit e).pc = s.pc := rfl
@[simp] theorem State.emit_sp (s : State) (e : OutEvent) : (s.emit e).sp = s.sp := rfl
@[simp] theorem State.emit_stack (s : State) (e : OutEvent) : (s.emit e).stack = s.stack := rfl
@[simp] theorem State.emit_dt (s : State) (e : OutEvent) : (s.emit e).dt = s.dt := rfl
@[simp] theorem State.emit_st (s : State) (e : OutEvent) : (s.emit e).st = s.st := rfl
@[simp] theorem State.emit_mem (s : State) (e : OutEvent) : (s.emit e).mem = s.mem := rfl
@[simp] theorem State.emit_fb (s : State) (e : OutEvent) : (s.emit e).fb = s.fb := rfl
@[simp] theorem State.emit_status (s : State) (e : OutEvent) : (s.emit e).status = s.status := rfl
@[simp] theorem State.emit_cause (s : State) (e : OutEvent) : (s.emit e).cause = s.cause := rfl
@[simp] theorem State.emit_info (s : State) (e : OutEvent) : (s.emit e).info = s.info := rfl
@[simp] theorem State.emit_fontPolicy (s : State) (e : OutEvent) : (s.emit e).fontPolicy = s.fontPolicy := rfl
@[simp] theorem State.emit_inputs (s : State) (e : OutEvent) : (s.emit e).inputs = s.inputs := rfl
@[simp] theorem State.emit_clock (s : State) (e : OutEvent) : (s.emit e).clock = s.clock := rfl
@[simp] theorem State.emit_outputs (s : State) (e : OutEvent) : (s.emit e).outputs = e :: s.outputs := rfl

@[simp] theorem State.flush_v (s : State) : (s.flush).v = s.v := rfl
@[simp] theorem State.flush_i (s : State) : (s.flush).i = s.i := rfl
@[simp] theorem State.flush_pc (s : State) : (s.flush).pc = s.pc := rfl
@[simp] theorem State.flush_sp (s : State) : (s.flush).sp = s.sp := rfl
@[simp] theorem State.flush_stack (s : State) : (s.flush).stack = s.stack := rfl
@[simp] theorem State.flush_dt (s : State) : (s.flush).dt = s.dt := rfl
@[simp] theorem State.flush_st (s : State) : (s.flush).st = s.st := rfl
@[simp] theorem State.flush_mem (s : State) : (s.flush).mem = s.mem := rfl
@[simp] theorem State.flush_fb (s : State) : (s.flush).fb = s.fb := rfl
@[simp] theorem State.flush_status (s : State) : (s.flush).status = s.status := rfl
@[simp] theorem State.flush_cause (s : State) : (s.flush).cause = s.cause := rfl
@[simp] theorem State.flush_info (s : State) : (s.flush).info = s.info := rfl
@[simp] theorem State.flush_fontPolicy (s : State) : (s.flush).fontPolicy = s.fontPolicy := rfl
@[simp] theorem State.flush_inputs (s : State) : (s.flush).inputs = s.inputs := rfl
@[simp] theorem State.flush_clock (s : State) : (s.flush).clock = s.clock := rfl
@[simp] theorem State.flush_outputs (s : State) : (s.flush).outputs = .flush s.fb :: s.outputs := rfl

@[simp] theorem State.push_v (s : State) (h : s.sp.val < 16) (a : Word) : (s.push h a).v = s.v := rfl
@[simp] theorem State.push_i (s : State) (h : s.sp.val < 16) (a : Word) : (s.push h a).i = s.i := rfl
@[simp] theorem State.push_pc (s : State) (h : s.sp.val < 16) (a : Word) : (s.push h a).pc = s.pc := rfl
@[simp] theorem State.push_sp (s : State) (h : s.sp.val < 16) (a : Word) : (s.push h a).sp = ⟨s.sp.val + 1, by omega⟩ := rfl
@[simp] theorem State.push_stack (s : State) (h : s.sp.val < 16) (a : Word) : (s.push h a).stack = s.stack.set s.sp.val a h := rfl
@[simp] theorem State.push_dt (s : State) (h : s.sp.val < 16) (a : Word) : (s.push h a).dt = s.dt := rfl
@[simp] theorem State.push_st (s : State) (h : s.sp.val < 16) (a : Word) : (s.push h a).st = s.st := rfl
@[simp] theorem State.push_mem (s : State) (h : s.sp.val < 16) (a : Word) : (s.push h a).mem = s.mem := rfl
@[simp] theorem State.push_fb (s : State) (h : s.sp.val < 16) (a : Word) : (s.push h a).fb = s.fb := rfl
@[simp] theorem State.push_status (s : State) (h : s.sp.val < 16) (a : Word) : (s.push h a).status = s.status := rfl
@[simp] theorem State.push_cause (s : State) (h : s.sp.val < 16) (a : Word) : (s.push h a).cause = s.cause := rfl
@[simp] theorem State.push_info (s : State) (h : s.sp.val < 16) (a : Word) : (s.push h a).info = s.info := rfl
@[simp] theorem State.push_fontPolicy (s : State) (h : s.sp.val < 16) (a : Word) : (s.push h a).fontPolicy = s.fontPolicy := rfl
@[simp] theorem State.push_inputs (s : State) (h : s.sp.val < 16) (a : Word) : (s.push h a).inputs = s.inputs := rfl
@[simp] theorem State.push_clock (s : State) (h : s.sp.val < 16) (a : Word) : (s.push h a).clock = s.clock := rfl
@[simp] theorem State.push_outputs (s : State) (h : s.sp.val < 16) (a : Word) : (s.push h a).outputs = s.outputs := rfl

@[simp] theorem State.drop_v (s : State) (h : 0 < s.sp.val) : (s.drop h).v = s.v := rfl
@[simp] theorem State.drop_i (s : State) (h : 0 < s.sp.val) : (s.drop h).i = s.i := rfl
@[simp] theorem State.drop_pc (s : State) (h : 0 < s.sp.val) : (s.drop h).pc = s.pc := rfl
@[simp] theorem State.drop_sp (s : State) (h : 0 < s.sp.val) : (s.drop h).sp = ⟨s.sp.val - 1, by omega⟩ := rfl
@[simp] theorem State.drop_stack (s : State) (h : 0 < s.sp.val) : (s.drop h).stack = s.stack := rfl
@[simp] theorem State.drop_dt (s : State) (h : 0 < s.sp.val) : (s.drop h).dt = s.dt := rfl
@[simp] theorem State.drop_st (s : State) (h : 0 < s.sp.val) : (s.drop h).st = s.st := rfl
@[simp] theorem State.drop_mem (s : State) (h : 0 < s.sp.val) : (s.drop h).mem = s.mem := rfl
@[simp] theorem State.drop_fb (s : State) (h : 0 < s.sp.val) : (s.drop h).fb = s.fb := rfl
@[simp] theorem State.drop_status (s : State) (h : 0 < s.sp.val) : (s.drop h).status = s.status := rfl
@[simp] theorem State.drop_cause (s : State) (h : 0 < s.sp.val) : (s.drop h).cause = s.cause := rfl
@[simp] theorem State.drop_info (s : State) (h : 0 < s.sp.val) : (s.drop h).info = s.info := rfl
@[simp] theorem State.drop_fontPolicy (s : State) (h : 0 < s.sp.val) : (s.drop h).fontPolicy = s.fontPolicy := rfl
@[simp] theorem State.drop_inputs (s : State) (h : 0 < s.sp.val) : (s.drop h).inputs = s.inputs := rfl
@[simp] theorem State.drop_clock (s : State) (h : 0 < s.sp.val) : (s.drop h).clock = s.clock := rfl
@[simp] theorem State.drop_outputs (s : State) (h : 0 < s.sp.val) : (s.drop h).outputs = s.outputs := rfl

@[simp] theorem State.raise_v (s : State) (c : FaultCause) (f : FaultInfo) : (s.raise c f).v = s.v := rfl
@[simp] theorem State.raise_i (s : State) (c : FaultCause) (f : FaultInfo) : (s.raise c f).i = s.i := rfl
@[simp] theorem State.raise_pc (s : State) (c : FaultCause) (f : FaultInfo) : (s.raise c f).pc = s.pc := rfl
@[simp] theorem State.raise_sp (s : State) (c : FaultCause) (f : FaultInfo) : (s.raise c f).sp = s.sp := rfl
@[simp] theorem State.raise_stack (s : State) (c : FaultCause) (f : FaultInfo) : (s.raise c f).stack = s.stack := rfl
@[simp] theorem State.raise_dt (s : State) (c : FaultCause) (f : FaultInfo) : (s.raise c f).dt = s.dt := rfl
@[simp] theorem State.raise_st (s : State) (c : FaultCause) (f : FaultInfo) : (s.raise c f).st = s.st := rfl
@[simp] theorem State.raise_mem (s : State) (c : FaultCause) (f : FaultInfo) : (s.raise c f).mem = s.mem := rfl
@[simp] theorem State.raise_fb (s : State) (c : FaultCause) (f : FaultInfo) : (s.raise c f).fb = s.fb := rfl
@[simp] theorem State.raise_status (s : State) (c : FaultCause) (f : FaultInfo) : (s.raise c f).status = .halted := rfl
@[simp] theorem State.raise_cause (s : State) (c : FaultCause) (f : FaultInfo) : (s.raise c f).cause = c := rfl
@[simp] theorem State.raise_info (s : State) (c : FaultCause) (f : FaultInfo) : (s.raise c f).info = f := rfl
@[simp] theorem State.raise_fontPolicy (s : State) (c : FaultCause) (f : FaultInfo) : (s.raise c f).fontPolicy = s.fontPolicy := rfl
@[simp] theorem State.raise_inputs (s : State) (c : FaultCause) (f : FaultInfo) : (s.raise c f).inputs = s.inputs := rfl
@[simp] theorem State.raise_clock (s : State) (c : FaultCause) (f : FaultInfo) : (s.raise c f).clock = s.clock := rfl
@[simp] theorem State.raise_outputs (s : State) (c : FaultCause) (f : FaultInfo) : (s.raise c f).outputs = s.outputs := rfl

@[simp] theorem State.present_v (s : State) (inp : Inputs) : (s.present inp).v = s.v := rfl
@[simp] theorem State.present_i (s : State) (inp : Inputs) : (s.present inp).i = s.i := rfl
@[simp] theorem State.present_pc (s : State) (inp : Inputs) : (s.present inp).pc = s.pc := rfl
@[simp] theorem State.present_sp (s : State) (inp : Inputs) : (s.present inp).sp = s.sp := rfl
@[simp] theorem State.present_stack (s : State) (inp : Inputs) : (s.present inp).stack = s.stack := rfl
@[simp] theorem State.present_dt (s : State) (inp : Inputs) : (s.present inp).dt = s.dt := rfl
@[simp] theorem State.present_st (s : State) (inp : Inputs) : (s.present inp).st = s.st := rfl
@[simp] theorem State.present_mem (s : State) (inp : Inputs) : (s.present inp).mem = s.mem := rfl
@[simp] theorem State.present_fb (s : State) (inp : Inputs) : (s.present inp).fb = s.fb := rfl
@[simp] theorem State.present_status (s : State) (inp : Inputs) : (s.present inp).status = s.status := rfl
@[simp] theorem State.present_cause (s : State) (inp : Inputs) : (s.present inp).cause = s.cause := rfl
@[simp] theorem State.present_info (s : State) (inp : Inputs) : (s.present inp).info = s.info := rfl
@[simp] theorem State.present_fontPolicy (s : State) (inp : Inputs) : (s.present inp).fontPolicy = s.fontPolicy := rfl
@[simp] theorem State.present_inputs (s : State) (inp : Inputs) : (s.present inp).inputs = inp :: s.inputs := rfl
@[simp] theorem State.present_clock (s : State) (inp : Inputs) : (s.present inp).clock = s.clock := rfl
@[simp] theorem State.present_outputs (s : State) (inp : Inputs) : (s.present inp).outputs = s.outputs := rfl

@[simp] theorem State.nextInputs_v (s : State) : (s.nextInputs).v = s.v := rfl
@[simp] theorem State.nextInputs_i (s : State) : (s.nextInputs).i = s.i := rfl
@[simp] theorem State.nextInputs_pc (s : State) : (s.nextInputs).pc = s.pc := rfl
@[simp] theorem State.nextInputs_sp (s : State) : (s.nextInputs).sp = s.sp := rfl
@[simp] theorem State.nextInputs_stack (s : State) : (s.nextInputs).stack = s.stack := rfl
@[simp] theorem State.nextInputs_dt (s : State) : (s.nextInputs).dt = s.dt := rfl
@[simp] theorem State.nextInputs_st (s : State) : (s.nextInputs).st = s.st := rfl
@[simp] theorem State.nextInputs_mem (s : State) : (s.nextInputs).mem = s.mem := rfl
@[simp] theorem State.nextInputs_fb (s : State) : (s.nextInputs).fb = s.fb := rfl
@[simp] theorem State.nextInputs_status (s : State) : (s.nextInputs).status = s.status := rfl
@[simp] theorem State.nextInputs_cause (s : State) : (s.nextInputs).cause = s.cause := rfl
@[simp] theorem State.nextInputs_info (s : State) : (s.nextInputs).info = s.info := rfl
@[simp] theorem State.nextInputs_fontPolicy (s : State) : (s.nextInputs).fontPolicy = s.fontPolicy := rfl
@[simp] theorem State.nextInputs_inputs (s : State) : (s.nextInputs).inputs = s.inputs.tail := rfl
@[simp] theorem State.nextInputs_clock (s : State) : (s.nextInputs).clock = s.clock + 1 := rfl
@[simp] theorem State.nextInputs_outputs (s : State) : (s.nextInputs).outputs = s.outputs := rfl

/-- A register reads what was written to it, and every other register is left alone. -/
theorem State.setReg_reg (s : State) (x r : RegIdx) (b : Byte) :
    (s.setReg x b).reg r = if r = x then b else s.reg r := by
  simp only [State.reg, State.setReg_v, Vector.getElem_set, Fin.ext_iff, eq_comm]

@[simp] theorem State.setReg_reg_self (s : State) (x : RegIdx) (b : Byte) : (s.setReg x b).reg x = b := by
  simp [State.setReg_reg]

/-- The flag write reaches VF only. -/
theorem State.setFlag_reg (s : State) (f : Bool) (r : RegIdx) :
    (s.setFlag f).reg r = if r = 0xF then (if f then 0x01 else 0x00) else s.reg r :=
  State.setReg_reg s 0xF r _

/-- An update that leaves the register file alone leaves every register alone. -/
theorem State.reg_congr {s t : State} (h : t.v = s.v) (r : RegIdx) : t.reg r = s.reg r := by
  simp [State.reg, h]

/-- An update that leaves the stack alone leaves every slot alone. -/
theorem State.slot_congr {s t : State} (h : t.stack = s.stack) (k : Fin 16) : t.slot k = s.slot k := by
  simp [State.slot, h]

/-- A push writes the slot at SP and leaves every other slot alone. -/
theorem State.push_slot (s : State) (h : s.sp.val < 16) (a : Word) (k : Fin 16) :
    (s.push h a).slot k = if k.val = s.sp.val then a else s.slot k := by
  simp only [State.slot, State.push_stack, Vector.getElem_set, eq_comm]

@[simp] theorem State.setReg_slot (s : State) (x : RegIdx) (b : Byte) (k : Fin 16) : (s.setReg x b).slot k = s.slot k := rfl
@[simp] theorem State.setFlag_slot (s : State) (f : Bool) (k : Fin 16) : (s.setFlag f).slot k = s.slot k := rfl
@[simp] theorem State.setRegs_slot (s : State) (v : Vector Byte 16) (k : Fin 16) : (s.setRegs v).slot k = s.slot k := rfl
@[simp] theorem State.setPc_reg (s : State) (p : Word) (r : RegIdx) : (s.setPc p).reg r = s.reg r := rfl
@[simp] theorem State.setPc_slot (s : State) (p : Word) (k : Fin 16) : (s.setPc p).slot k = s.slot k := rfl
@[simp] theorem State.advance_reg (s : State) (r : RegIdx) : (s.advance).reg r = s.reg r := rfl
@[simp] theorem State.advance_slot (s : State) (k : Fin 16) : (s.advance).slot k = s.slot k := rfl
@[simp] theorem State.skipIf_reg (s : State) (c : Bool) (r : RegIdx) : (s.skipIf c).reg r = s.reg r := rfl
@[simp] theorem State.skipIf_slot (s : State) (c : Bool) (k : Fin 16) : (s.skipIf c).slot k = s.slot k := rfl
@[simp] theorem State.setI_reg (s : State) (a : Word) (r : RegIdx) : (s.setI a).reg r = s.reg r := rfl
@[simp] theorem State.setI_slot (s : State) (a : Word) (k : Fin 16) : (s.setI a).slot k = s.slot k := rfl
@[simp] theorem State.setDt_reg (s : State) (b : Byte) (r : RegIdx) : (s.setDt b).reg r = s.reg r := rfl
@[simp] theorem State.setDt_slot (s : State) (b : Byte) (k : Fin 16) : (s.setDt b).slot k = s.slot k := rfl
@[simp] theorem State.setSt_reg (s : State) (b : Byte) (r : RegIdx) : (s.setSt b).reg r = s.reg r := rfl
@[simp] theorem State.setSt_slot (s : State) (b : Byte) (k : Fin 16) : (s.setSt b).slot k = s.slot k := rfl
@[simp] theorem State.setMem_reg (s : State) (m : Memory) (r : RegIdx) : (s.setMem m).reg r = s.reg r := rfl
@[simp] theorem State.setMem_slot (s : State) (m : Memory) (k : Fin 16) : (s.setMem m).slot k = s.slot k := rfl
@[simp] theorem State.setFb_reg (s : State) (d : Display) (r : RegIdx) : (s.setFb d).reg r = s.reg r := rfl
@[simp] theorem State.setFb_slot (s : State) (d : Display) (k : Fin 16) : (s.setFb d).slot k = s.slot k := rfl
@[simp] theorem State.setFontPolicy_reg (s : State) (p : FontDigitPolicy) (r : RegIdx) : (s.setFontPolicy p).reg r = s.reg r := rfl
@[simp] theorem State.setFontPolicy_slot (s : State) (p : FontDigitPolicy) (k : Fin 16) : (s.setFontPolicy p).slot k = s.slot k := rfl
@[simp] theorem State.emit_reg (s : State) (e : OutEvent) (r : RegIdx) : (s.emit e).reg r = s.reg r := rfl
@[simp] theorem State.emit_slot (s : State) (e : OutEvent) (k : Fin 16) : (s.emit e).slot k = s.slot k := rfl
@[simp] theorem State.flush_reg (s : State) (r : RegIdx) : (s.flush).reg r = s.reg r := rfl
@[simp] theorem State.flush_slot (s : State) (k : Fin 16) : (s.flush).slot k = s.slot k := rfl
@[simp] theorem State.push_reg (s : State) (h : s.sp.val < 16) (a : Word) (r : RegIdx) : (s.push h a).reg r = s.reg r := rfl
@[simp] theorem State.drop_reg (s : State) (h : 0 < s.sp.val) (r : RegIdx) : (s.drop h).reg r = s.reg r := rfl
@[simp] theorem State.drop_slot (s : State) (h : 0 < s.sp.val) (k : Fin 16) : (s.drop h).slot k = s.slot k := rfl
@[simp] theorem State.raise_reg (s : State) (c : FaultCause) (f : FaultInfo) (r : RegIdx) : (s.raise c f).reg r = s.reg r := rfl
@[simp] theorem State.raise_slot (s : State) (c : FaultCause) (f : FaultInfo) (k : Fin 16) : (s.raise c f).slot k = s.slot k := rfl
@[simp] theorem State.present_reg (s : State) (inp : Inputs) (r : RegIdx) : (s.present inp).reg r = s.reg r := rfl
@[simp] theorem State.present_slot (s : State) (inp : Inputs) (k : Fin 16) : (s.present inp).slot k = s.slot k := rfl
@[simp] theorem State.nextInputs_reg (s : State) (r : RegIdx) : (s.nextInputs).reg r = s.reg r := rfl
@[simp] theorem State.nextInputs_slot (s : State) (k : Fin 16) : (s.nextInputs).slot k = s.slot k := rfl

/-- FX65's register file: V[k] is the byte at base + k for k up to x, and the old value above. -/
theorem State.setRegs_loadedRegs_reg (s : State) (x : RegIdx) (base : Nat) (r : RegIdx) :
    (s.setRegs (s.loadedRegs x base)).reg r =
      if r.val ≤ x.val then s.mem.read (base + r.val) else s.reg r := by
  simp [State.reg, State.loadedRegs]

/-- Ticks on two stopped timers change nothing. -/
theorem State.ticks_stopped (n : Nat) (s : State) (h : s.dt = 0 ∧ s.st = 0) : State.ticks n s = s := by
  induction n with
  | zero => rfl
  | succ n ih =>
    have ht : s.tick = s := by
      obtain ⟨hd, hs⟩ := h
      cases s
      simp_all [State.tick, countDown, State.setDt, State.setSt]
    rw [State.ticks, ht, ih]

/-- `runTicks` is `ticks`: the shortcut for stopped timers loses nothing (R230). -/
theorem State.runTicks_eq_ticks (n : Nat) (s : State) : State.runTicks n s = State.ticks n s := by
  unfold State.runTicks
  split
  · next h => exact (State.ticks_stopped n s h).symm
  · rfl

@[simp] theorem State.tick_v (s : State) : s.tick.v = s.v := by unfold State.tick; dsimp only; split <;> rfl
@[simp] theorem State.tick_i (s : State) : s.tick.i = s.i := by unfold State.tick; dsimp only; split <;> rfl
@[simp] theorem State.tick_pc (s : State) : s.tick.pc = s.pc := by unfold State.tick; dsimp only; split <;> rfl
@[simp] theorem State.tick_sp (s : State) : s.tick.sp = s.sp := by unfold State.tick; dsimp only; split <;> rfl
@[simp] theorem State.tick_stack (s : State) : s.tick.stack = s.stack := by unfold State.tick; dsimp only; split <;> rfl
@[simp] theorem State.tick_mem (s : State) : s.tick.mem = s.mem := by unfold State.tick; dsimp only; split <;> rfl
@[simp] theorem State.tick_fb (s : State) : s.tick.fb = s.fb := by unfold State.tick; dsimp only; split <;> rfl
@[simp] theorem State.tick_status (s : State) : s.tick.status = s.status := by unfold State.tick; dsimp only; split <;> rfl
@[simp] theorem State.tick_cause (s : State) : s.tick.cause = s.cause := by unfold State.tick; dsimp only; split <;> rfl
@[simp] theorem State.tick_info (s : State) : s.tick.info = s.info := by unfold State.tick; dsimp only; split <;> rfl
@[simp] theorem State.tick_fontPolicy (s : State) : s.tick.fontPolicy = s.fontPolicy := by unfold State.tick; dsimp only; split <;> rfl
@[simp] theorem State.tick_inputs (s : State) : s.tick.inputs = s.inputs := by unfold State.tick; dsimp only; split <;> rfl
@[simp] theorem State.tick_clock (s : State) : s.tick.clock = s.clock := by unfold State.tick; dsimp only; split <;> rfl
@[simp] theorem State.tick_dt (s : State) : s.tick.dt = countDown s.dt := by unfold State.tick; dsimp only; split <;> rfl
@[simp] theorem State.tick_st (s : State) : s.tick.st = countDown s.st := by unfold State.tick; dsimp only; split <;> rfl

@[simp] theorem State.ticks_v (n : Nat) (s : State) : (State.ticks n s).v = s.v := by
  induction n generalizing s with
  | zero => rfl
  | succ n ih => rw [State.ticks, ih, State.tick_v]
@[simp] theorem State.ticks_i (n : Nat) (s : State) : (State.ticks n s).i = s.i := by
  induction n generalizing s with
  | zero => rfl
  | succ n ih => rw [State.ticks, ih, State.tick_i]
@[simp] theorem State.ticks_pc (n : Nat) (s : State) : (State.ticks n s).pc = s.pc := by
  induction n generalizing s with
  | zero => rfl
  | succ n ih => rw [State.ticks, ih, State.tick_pc]
@[simp] theorem State.ticks_sp (n : Nat) (s : State) : (State.ticks n s).sp = s.sp := by
  induction n generalizing s with
  | zero => rfl
  | succ n ih => rw [State.ticks, ih, State.tick_sp]
@[simp] theorem State.ticks_stack (n : Nat) (s : State) : (State.ticks n s).stack = s.stack := by
  induction n generalizing s with
  | zero => rfl
  | succ n ih => rw [State.ticks, ih, State.tick_stack]
@[simp] theorem State.ticks_mem (n : Nat) (s : State) : (State.ticks n s).mem = s.mem := by
  induction n generalizing s with
  | zero => rfl
  | succ n ih => rw [State.ticks, ih, State.tick_mem]
@[simp] theorem State.ticks_fb (n : Nat) (s : State) : (State.ticks n s).fb = s.fb := by
  induction n generalizing s with
  | zero => rfl
  | succ n ih => rw [State.ticks, ih, State.tick_fb]
@[simp] theorem State.ticks_status (n : Nat) (s : State) : (State.ticks n s).status = s.status := by
  induction n generalizing s with
  | zero => rfl
  | succ n ih => rw [State.ticks, ih, State.tick_status]
@[simp] theorem State.ticks_cause (n : Nat) (s : State) : (State.ticks n s).cause = s.cause := by
  induction n generalizing s with
  | zero => rfl
  | succ n ih => rw [State.ticks, ih, State.tick_cause]
@[simp] theorem State.ticks_info (n : Nat) (s : State) : (State.ticks n s).info = s.info := by
  induction n generalizing s with
  | zero => rfl
  | succ n ih => rw [State.ticks, ih, State.tick_info]
@[simp] theorem State.ticks_fontPolicy (n : Nat) (s : State) : (State.ticks n s).fontPolicy = s.fontPolicy := by
  induction n generalizing s with
  | zero => rfl
  | succ n ih => rw [State.ticks, ih, State.tick_fontPolicy]
@[simp] theorem State.ticks_inputs (n : Nat) (s : State) : (State.ticks n s).inputs = s.inputs := by
  induction n generalizing s with
  | zero => rfl
  | succ n ih => rw [State.ticks, ih, State.tick_inputs]
@[simp] theorem State.ticks_clock (n : Nat) (s : State) : (State.ticks n s).clock = s.clock := by
  induction n generalizing s with
  | zero => rfl
  | succ n ih => rw [State.ticks, ih, State.tick_clock]

@[simp] theorem State.settle_v (s : State) (n : Nat) : (s.settle n).v = s.v := by
  simp [State.settle, State.runTicks_eq_ticks]
@[simp] theorem State.settle_i (s : State) (n : Nat) : (s.settle n).i = s.i := by
  simp [State.settle, State.runTicks_eq_ticks]
@[simp] theorem State.settle_pc (s : State) (n : Nat) : (s.settle n).pc = s.pc := by
  simp [State.settle, State.runTicks_eq_ticks]
@[simp] theorem State.settle_sp (s : State) (n : Nat) : (s.settle n).sp = s.sp := by
  simp [State.settle, State.runTicks_eq_ticks]
@[simp] theorem State.settle_stack (s : State) (n : Nat) : (s.settle n).stack = s.stack := by
  simp [State.settle, State.runTicks_eq_ticks]
@[simp] theorem State.settle_mem (s : State) (n : Nat) : (s.settle n).mem = s.mem := by
  simp [State.settle, State.runTicks_eq_ticks]
@[simp] theorem State.settle_fb (s : State) (n : Nat) : (s.settle n).fb = s.fb := by
  simp [State.settle, State.runTicks_eq_ticks]
@[simp] theorem State.settle_status (s : State) (n : Nat) : (s.settle n).status = s.status := by
  simp [State.settle, State.runTicks_eq_ticks]
@[simp] theorem State.settle_cause (s : State) (n : Nat) : (s.settle n).cause = s.cause := by
  simp [State.settle, State.runTicks_eq_ticks]
@[simp] theorem State.settle_info (s : State) (n : Nat) : (s.settle n).info = s.info := by
  simp [State.settle, State.runTicks_eq_ticks]
@[simp] theorem State.settle_fontPolicy (s : State) (n : Nat) : (s.settle n).fontPolicy = s.fontPolicy := by
  simp [State.settle, State.runTicks_eq_ticks]
@[simp] theorem State.settle_inputs (s : State) (n : Nat) : (s.settle n).inputs = s.inputs.tail := by
  simp [State.settle, State.runTicks_eq_ticks]
@[simp] theorem State.settle_clock (s : State) (n : Nat) : (s.settle n).clock = s.clock + 1 := by
  simp [State.settle, State.runTicks_eq_ticks]

end Sys2Proof.Machine
end

