-- ==== Sys2Proof/Laws/Ops.lean ====
section
/-! SUPPORT. What each shared operation can do, said once: the range check, the operand forms, the fetch
and the cycle. -/

namespace Sys2Proof.Machine

@[simp] theorem InRange_iff (a n : Nat) : InRange a n = true ↔ a + n - 1 ≤ 0xFFF := by simp [InRange]

/-- A checked access either goes through, with its range in memory, or raises OutOfRangeAddress in the
state it started from (R65). -/
theorem State.checked_cases (s : State) (w : Option Word) (base n : Nat) (k : AccessKind) (t : State) :
    (base + n - 1 ≤ 0xFFF ∧ s.checked w base n k t = t) ∨
      (0xFFF < base + n - 1 ∧ s.checked w base n k t = s.raiseOutOfRange w base k) := by
  unfold State.checked
  by_cases h : base + n - 1 ≤ 0xFFF
  · exact .inl ⟨h, if_pos ((InRange_iff _ _).mpr h)⟩
  · exact .inr ⟨by omega, if_neg (by simpa using h)⟩

/-- The registers V0 to VX are X + 1 bytes. -/
@[simp] theorem State.regSlice_length (s : State) (x : RegIdx) : (s.regSlice x).length = x.val + 1 := by
  simp [State.regSlice]

/-- The k-th byte of the slice is V[k]. -/
theorem State.regSlice_getElem (s : State) (x : RegIdx) (k : Nat) (h : k < (s.regSlice x).length) :
    (s.regSlice x)[k] = s.reg ⟨k, by simp at h; omega⟩ := by
  simp [State.regSlice, State.reg]

@[simp] theorem bcdDigits_length (x : Byte) : (bcdDigits x).length = 3 := rfl

/-- The byte of a key has the key's value (R210). -/
theorem keyByte_toNat (k : Key) : (keyByte k).toNat = k.val := by
  simp [keyByte, u8]
  omega

/-- For a digit every policy gives 5 times the digit (R196). -/
theorem glyphAddr_digit_toNat (p : FontDigitPolicy) (n : Nat) (x : Byte) (h : x.toNat ≤ 0xF) :
    (glyphAddr p n x).toNat = 5 * x.toNat := by
  simp [glyphAddr, h, u16]
  omega

/-- The policy linear gives 5 times any value (R196). -/
theorem glyphAddr_linear_toNat (n : Nat) (x : Byte) : (glyphAddr .linear n x).toNat = 5 * x.toNat := by
  have := x.isLt
  simp only [glyphAddr]
  split <;> simp [u16] <;> omega

/-- The policy low_nibble gives 5 times the low nibble (R196). -/
theorem glyphAddr_lowNibble_toNat (n : Nat) (x : Byte) :
    (glyphAddr .lowNibble n x).toNat = 5 * (x.toNat % 16) := by
  by_cases h : x.toNat ≤ 0xF
  · rw [glyphAddr_digit_toNat _ _ _ h, Nat.mod_eq_of_lt (by omega)]
  · simp [glyphAddr, h, u16]
    omega

/-- The policy any gives the step's own draw above 0xF (R196). -/
theorem glyphAddr_any (n : Nat) (x : Byte) (h : 0xF < x.toNat) : glyphAddr .any n x = Config.freeGlyphAddr n := by
  simp [glyphAddr, Nat.not_le.mpr h]

@[simp] theorem addr16_toNat (nnn : BitVec 12) : (addr16 nnn).toNat = nnn.toNat := by
  simp [addr16]
  omega

/-- The default advance is the 16-bit sum PC0 + 2 (R35). -/
theorem State.advance_pc_toNat (s : State) : s.advance.pc.toNat = (s.pc.toNat + 2) % 65536 := by
  simp [BitVec.toNat_add]

/-- Presenting an input makes it the sample of the next step. -/
@[simp] theorem State.now_present (s : State) (inp : Inputs) : (s.present inp).now = inp := rfl

/-- The fetched bytes are the bytes at PC and PC + 1, high byte first (R63). -/
theorem State.fetchBytes_eq (s : State) : s.fetchBytes = [s.mem.read s.pc.toNat, s.mem.read (s.pc.toNat + 1)] := rfl

/-- Decoding the fetched bytes is decoding the fetched word. -/
theorem State.decodeBytes_fetchBytes (s : State) :
    decodeBytes s.fetchBytes =
      match decode s.fetchWord with
      | some i => .ok i
      | none => .error (.unknownOpcode s.fetchWord) := rfl

/-- What an engine step does, by the state it starts in (R107, R226). -/
theorem engineStep_cases (s : State) :
    (s.status = .halted ∧ engineStep s = .next s) ∨
    (s.status = .running ∧ 0xFFE < s.pc.toNat ∧
      engineStep s = .next (s.raiseOutOfRange none s.pc.toNat .fetch)) ∨
    (s.status = .running ∧ s.pc.toNat ≤ 0xFFE ∧ decode s.fetchWord = none ∧
      engineStep s = .next (s.raiseUnknown s.fetchWord)) ∨
    (s.status = .running ∧ s.pc.toNat ≤ 0xFFE ∧
      ∃ i, decode s.fetchWord = some i ∧ engineStep s = exec i s) := by
  cases hs : s.status with
  | halted => exact .inl ⟨rfl, by simp [engineStep, hs]⟩
  | running =>
    by_cases hr : s.pc.toNat ≤ 0xFFE
    · have hin : InRange s.pc.toNat 2 = true := by simp; omega
      cases hd : decode s.fetchWord with
      | none =>
        refine .inr (.inr (.inl ⟨rfl, hr, rfl, ?_⟩))
        simp [engineStep, hs, hin, State.issue, State.decodeBytes_fetchBytes, hd]
      | some i =>
        refine .inr (.inr (.inr ⟨rfl, hr, i, rfl, ?_⟩))
        simp [engineStep, hs, hin, State.issue, State.decodeBytes_fetchBytes, hd]
    · have hin : InRange s.pc.toNat 2 = false := by simp [InRange]; omega
      exact .inr (.inl ⟨rfl, by omega, by simp [engineStep, hs, hin]⟩)

/-- A step that answers a next state is an engine step that does, with what follows it. -/
theorem step_next_iff (s t : State) :
    step s = .next t ↔ ∃ u, engineStep s = .next u ∧ t = u.settle s.now.ticks := by
  unfold step cycle
  cases engineStep s <;> simp [eq_comm]

end Sys2Proof.Machine
end

