-- ==== Sys2Proof/Laws/Sprite.lean ====
section
/-! SUPPORT. What XOR-ing one pixel and drawing one bit do to every pixel of the display. -/

namespace Sys2Proof.Machine

/-- `xorPixel` changes exactly the pixel it names, and flips it when the bit is 1 (R176). -/
theorem Display.xorPixel_pixel (d : Display) (c c' : Fin 64) (r r' : Fin 32) (p : Bool) :
    (d.xorPixel c r p).pixel c' r' = (d.pixel c' r' ^^ (p && decide (c' = c) && decide (r' = r))) := by
  unfold Display.pixel Display.xorPixel
  rw [Vector.getElem_set]
  by_cases hr : r' = r
  · subst hr
    cases p
    · simp
    · by_cases hc : c' = c
      · subst hc; simp
      · have hne : c'.val ≠ c.val := Fin.val_ne_of_ne hc
        have hsub : c.val ≤ c'.val → ¬ (c'.val - c.val = 0) := by omega
        by_cases hlt : c' < c
        · simp [hc, hlt]
        · simp [hc, hsub (not_lt.mp hlt)]
  · have : r.val ≠ r'.val := fun h => hr (Fin.ext h.symm)
    simp [this, hr]

theorem Display.clear_pixel (c : Fin 64) (r : Fin 32) : Display.clear.pixel c r = false := by
  simp [Display.clear, Display.pixel]

/-- Two displays with the same pixels are the same display. -/
theorem Display.ext_pixel {d e : Display} (h : ∀ c r, d.pixel c r = e.pixel c r) : d = e := by
  apply Vector.ext
  intro r hr
  apply BitVec.eq_of_getLsbD_eq
  intro c hc
  exact h ⟨c, hc⟩ ⟨r, hr⟩

/-- One sprite bit: the pixel it lands on is XORed with it, and a collision is a 1 on a lit pixel
(R176, R177). -/
theorem drawBit_spec (x y : Nat) (b : Byte) (d : Drawing) (k : Nat) :
    (∀ c r, (drawBit x y b d k).1.pixel c r =
      (d.1.pixel c r ^^ (b.getLsbD (7 - k) && decide (c = Fin.ofNat 64 (x + k)) && decide (r = Fin.ofNat 32 y)))) ∧
    (drawBit x y b d k).2 =
      (d.2 || (b.getLsbD (7 - k) && d.1.pixel (Fin.ofNat 64 (x + k)) (Fin.ofNat 32 y))) :=
  ⟨fun _ _ => Display.xorPixel_pixel _ _ _ _ _ _, rfl⟩

end Sys2Proof.Machine
end

