-- ==== Sys2Proof/Laws/Frames.lean ====
section
/-! SUPPORT. The frame and the result of each shared operation, in the terms of Safety, and the cases of the
meanings that can raise or hold. -/

namespace Sys2Proof.Machine

/-! The program counter -/

/-- The default advance in the terms of claims (R35). -/
theorem pc_add_two (s : State) : s.pc + 2 = pcPlus s 2 := by
  apply BitVec.eq_of_toNat_eq
  simp [pcPlus, u16, BitVec.toNat_add]

/-- A taken skip in the terms of claims (R35, R140). -/
theorem pc_add_four (s : State) : s.pc + 4 = pcPlus s 4 := by
  apply BitVec.eq_of_toNat_eq
  simp [pcPlus, u16, BitVec.toNat_add]

/-! Exceptions: each is `State.raise` with its own record -/

@[simp] theorem State.raiseUnknown_eq (s : State) (w : Word) :
    s.raiseUnknown w = s.raise .unknownOpcode ⟨s.pc, some w, none, none⟩ := rfl

@[simp] theorem State.raiseOutOfRange_eq (s : State) (w : Option Word) (base : Nat) (k : AccessKind) :
    s.raiseOutOfRange w base k = s.raise .outOfRangeAddress ⟨s.pc, w, some (max base 0x1000), some k⟩ := rfl

@[simp] theorem State.raiseOverflow_eq (s : State) (w : Word) :
    s.raiseOverflow w = s.raise .stackOverflow ⟨s.pc, some w, none, none⟩ := rfl

@[simp] theorem State.raiseUnderflow_eq (s : State) (w : Word) :
    s.raiseUnderflow w = s.raise .stackUnderflow ⟨s.pc, some w, none, none⟩ := rfl

/-- Raising changes STATUS, FAULT_CAUSE and FAULT_INFO and nothing else (R224). -/
theorem State.raise_keeps (s : State) (c : FaultCause) (f : FaultInfo) :
    Keeps { status := True } s (s.raise c f) := by
  constructor <;> simp

/-! Results -/

/-- A skip changes nothing but PC (R140). -/
theorem State.skipIf_keeps (s : State) (c : Bool) : Keeps {} s (s.skipIf c) := by
  constructor <;> simp

/-- A register result changes its register only (R150). -/
theorem State.result_keeps (s : State) (x : RegIdx) (b : Byte) :
    Keeps { regs := fun r => r = x } s (s.result x b) := by
  constructor <;> simp [State.result]
  intro r h
  simp [State.setReg_reg, h]

theorem State.result_reg (s : State) (x : RegIdx) (b : Byte) : (s.result x b).reg x = b := by
  simp [State.result]

theorem State.result_pc (s : State) (x : RegIdx) (b : Byte) : (s.result x b).pc = pcPlus s 2 := by
  simp [State.result, ← pc_add_two]

/-- A flagged register result changes its register and VF only (R150). -/
theorem State.resultFlag_keeps (s : State) (x : RegIdx) (b : Byte) (f : Bool) :
    Keeps { regs := fun r => r = x ∨ r = 0xF } s (s.resultFlag x b f) := by
  constructor <;> simp [State.resultFlag]
  intro r h1 h2
  simp [State.setReg_reg, State.setFlag_reg, h1, h2]

theorem State.resultFlag_reg (s : State) (x : RegIdx) (b : Byte) (f : Bool) (h : x ≠ 0xF) :
    (s.resultFlag x b f).reg x = b := by
  simp [State.resultFlag, State.setFlag_reg, h]

/-- The flag is written last, so VF holds it whatever the destination is (R32). -/
theorem State.resultFlag_flag (s : State) (x : RegIdx) (b : Byte) (f : Bool) :
    ((s.resultFlag x b f).reg 0xF).toNat = if f then 1 else 0 := by
  cases f <;> simp [State.resultFlag, State.setFlag_reg]

theorem State.resultFlag_pc (s : State) (x : RegIdx) (b : Byte) (f : Bool) :
    (s.resultFlag x b f).pc = pcPlus s 2 := by
  simp [State.resultFlag, ← pc_add_two]

/-- The condition of EX9E in the terms of claims (R146). -/
theorem keyMatches_iff (k : Option Key) (x : Byte) :
    keyMatches k x = true ↔ ∃ j, k = some j ∧ x.toNat = j.val := by
  cases k <;> simp [keyMatches]

/-- A timer's decrement as a subtraction that stops at 0 (R41). -/
theorem countDown_toNat (t : Byte) : (countDown t).toNat = t.toNat - 1 := by
  have := t.isLt
  unfold countDown
  split
  · simp_all
  · next h =>
    have : t.toNat ≠ 0 := fun h' => h (BitVec.eq_of_toNat_eq h')
    rw [BitVec.toNat_sub]
    simp
    omega

/-! The meanings that can raise or hold: every state they can answer -/

theorem execRet_cases (s t : State) (h : execRet s = .next t) :
    (∃ h : 0 < s.sp.val, t = (s.drop h).setPc (s.top h)) ∨ (s.sp = 0 ∧ t = s.raiseUnderflow 0x00EE) := by
  cases h
  split
  · next h => exact .inl ⟨h, rfl⟩
  · exact .inr ⟨Fin.ext (by simp; omega), rfl⟩

theorem execCall_cases (nnn : BitVec 12) (s t : State) (h : execCall nnn s = .next t) :
    (∃ h : s.sp.val < 16, t = (s.push h (s.pc + 2)).setPc (addr16 nnn)) ∨
      (s.sp = 16 ∧ t = s.raiseOverflow (encode (.call nnn))) := by
  cases h
  split
  · next h => exact .inl ⟨h, rfl⟩
  · exact .inr ⟨Fin.ext (by have := s.sp.isLt; simp; omega), rfl⟩

theorem execDrw_cases (x y : RegIdx) (n : BitVec 4) (s t : State) (h : execDrw x y n s = .next t) :
    ((n = 0 ∨ s.i.toNat + n.toNat ≤ 0x1000) ∧
      t = s.drawn (s.reg x).toNat (s.reg y).toNat (s.mem.readBytes s.i.toNat n.toNat)) ∨
    (n ≠ 0 ∧ 0x1000 < s.i.toNat + n.toNat ∧
      t = s.raiseOutOfRange (some (encode (.drw x y n))) s.i.toNat .read) := by
  cases h
  by_cases hn : n = 0
  · exact .inl ⟨.inl hn, by rw [if_pos hn]⟩
  · have : n.toNat ≠ 0 := fun h => hn (BitVec.eq_of_toNat_eq h)
    rw [if_neg hn]
    rcases State.checked_cases s (some (encode (.drw x y n))) s.i.toNat n.toNat .read
      (s.drawn (s.reg x).toNat (s.reg y).toNat (s.mem.readBytes s.i.toNat n.toNat)) with ⟨h1, h2⟩ | ⟨h1, h2⟩
    · exact .inl ⟨.inr (by omega), h2⟩
    · exact .inr ⟨hn, by omega, h2⟩

theorem execLdB_cases (x : RegIdx) (s t : State) (h : execLdB x s = .next t) :
    (s.i.toNat + 2 ≤ 0xFFF ∧ t = (s.setMem (s.mem.writeBytes s.i.toNat (bcdDigits (s.reg x)))).advance) ∨
      (0xFFF < s.i.toNat + 2 ∧ t = s.raiseOutOfRange (some (encode (.ldB x))) s.i.toNat .write) := by
  cases h
  rcases State.checked_cases s (some (encode (.ldB x))) s.i.toNat 3 .write
    (s.setMem (s.mem.writeBytes s.i.toNat (bcdDigits (s.reg x)))).advance with ⟨h1, h2⟩ | ⟨h1, h2⟩
  · exact .inl ⟨by omega, h2⟩
  · exact .inr ⟨by omega, h2⟩

theorem execLdMemVx_cases (x : RegIdx) (s t : State) (h : execLdMemVx x s = .next t) :
    (s.i.toNat + x.val ≤ 0xFFF ∧ t = (s.setMem (s.mem.writeBytes s.i.toNat (s.regSlice x))).advance) ∨
      (0xFFF < s.i.toNat + x.val ∧
        t = s.raiseOutOfRange (some (encode (.ldMemVx x))) s.i.toNat .write) := by
  cases h
  rcases State.checked_cases s (some (encode (.ldMemVx x))) s.i.toNat (x.val + 1) .write
    (s.setMem (s.mem.writeBytes s.i.toNat (s.regSlice x))).advance with ⟨h1, h2⟩ | ⟨h1, h2⟩
  · exact .inl ⟨by omega, h2⟩
  · exact .inr ⟨by omega, h2⟩

theorem execLdVxMem_cases (x : RegIdx) (s t : State) (h : execLdVxMem x s = .next t) :
    (s.i.toNat + x.val ≤ 0xFFF ∧ t = (s.setRegs (s.loadedRegs x s.i.toNat)).advance) ∨
      (0xFFF < s.i.toNat + x.val ∧
        t = s.raiseOutOfRange (some (encode (.ldVxMem x))) s.i.toNat .read) := by
  cases h
  rcases State.checked_cases s (some (encode (.ldVxMem x))) s.i.toNat (x.val + 1) .read
    (s.setRegs (s.loadedRegs x s.i.toNat)).advance with ⟨h1, h2⟩ | ⟨h1, h2⟩
  · exact .inl ⟨by omega, h2⟩
  · exact .inr ⟨by omega, h2⟩

theorem execLdVxK_cases (x : RegIdx) (s t : State) (h : execLdVxK x s = .next t) :
    (s.now.key = none ∧ t = s) ∨ ∃ k, s.now.key = some k ∧ t = s.result x (keyByte k) := by
  cases h
  cases hk : s.now.key with
  | none => exact .inl ⟨rfl, by simp [State.sampleKey, hk]⟩
  | some k => exact .inr ⟨k, rfl, by simp [State.sampleKey, hk]⟩

end Sys2Proof.Machine
end

