-- ==== Sys2Proof/Laws/PerInstr.lean ====
section
/-! SUPPORT. Per instruction: the encoding matches the instruction's row of the opcode table (R101). -/

namespace Sys2Proof.Laws.EncodesRow

/-- The word `encode` gives an instruction has every bit its row of spec/opcode_table.json fixes. -/
def Statement (i : Instr) : Prop := (rowOf i).matchesWord (encode i) = true

theorem cls : Statement .cls := rfl

theorem ret : Statement .ret := rfl

theorem jp (nnn : BitVec 12) : Statement (.jp nnn) := by
  simp [Statement, OpcodeRow.matchesWord, rowOf, encode, wordNNN_and_class]

theorem call (nnn : BitVec 12) : Statement (.call nnn) := by
  simp [Statement, OpcodeRow.matchesWord, rowOf, encode, wordNNN_and_class]

theorem seImm (x : RegIdx) (nn : Byte) : Statement (.seImm x nn) := by
  simp [Statement, OpcodeRow.matchesWord, rowOf, encode, wordXNN_and_class]

theorem sneImm (x : RegIdx) (nn : Byte) : Statement (.sneImm x nn) := by
  simp [Statement, OpcodeRow.matchesWord, rowOf, encode, wordXNN_and_class]

theorem seReg (x : RegIdx) (y : RegIdx) : Statement (.seReg x y) := by
  simp [Statement, OpcodeRow.matchesWord, rowOf, encode, wordXYN_and_class_n]

theorem ldImm (x : RegIdx) (nn : Byte) : Statement (.ldImm x nn) := by
  simp [Statement, OpcodeRow.matchesWord, rowOf, encode, wordXNN_and_class]

theorem addImm (x : RegIdx) (nn : Byte) : Statement (.addImm x nn) := by
  simp [Statement, OpcodeRow.matchesWord, rowOf, encode, wordXNN_and_class]

theorem ldReg (x : RegIdx) (y : RegIdx) : Statement (.ldReg x y) := by
  simp [Statement, OpcodeRow.matchesWord, rowOf, encode, wordXYN_and_class_n]

theorem orReg (x : RegIdx) (y : RegIdx) : Statement (.orReg x y) := by
  simp [Statement, OpcodeRow.matchesWord, rowOf, encode, wordXYN_and_class_n]

theorem andReg (x : RegIdx) (y : RegIdx) : Statement (.andReg x y) := by
  simp [Statement, OpcodeRow.matchesWord, rowOf, encode, wordXYN_and_class_n]

theorem xorReg (x : RegIdx) (y : RegIdx) : Statement (.xorReg x y) := by
  simp [Statement, OpcodeRow.matchesWord, rowOf, encode, wordXYN_and_class_n]

theorem addReg (x : RegIdx) (y : RegIdx) : Statement (.addReg x y) := by
  simp [Statement, OpcodeRow.matchesWord, rowOf, encode, wordXYN_and_class_n]

theorem sub (x : RegIdx) (y : RegIdx) : Statement (.sub x y) := by
  simp [Statement, OpcodeRow.matchesWord, rowOf, encode, wordXYN_and_class_n]

theorem shr (x : RegIdx) (y : RegIdx) : Statement (.shr x y) := by
  simp [Statement, OpcodeRow.matchesWord, rowOf, encode, wordXYN_and_class_n]

theorem subn (x : RegIdx) (y : RegIdx) : Statement (.subn x y) := by
  simp [Statement, OpcodeRow.matchesWord, rowOf, encode, wordXYN_and_class_n]

theorem shl (x : RegIdx) (y : RegIdx) : Statement (.shl x y) := by
  simp [Statement, OpcodeRow.matchesWord, rowOf, encode, wordXYN_and_class_n]

theorem sneReg (x : RegIdx) (y : RegIdx) : Statement (.sneReg x y) := by
  simp [Statement, OpcodeRow.matchesWord, rowOf, encode, wordXYN_and_class_n]

theorem ldI (nnn : BitVec 12) : Statement (.ldI nnn) := by
  simp [Statement, OpcodeRow.matchesWord, rowOf, encode, wordNNN_and_class]

theorem jpV0 (nnn : BitVec 12) : Statement (.jpV0 nnn) := by
  simp [Statement, OpcodeRow.matchesWord, rowOf, encode, wordNNN_and_class]

theorem rnd (x : RegIdx) (nn : Byte) : Statement (.rnd x nn) := by
  simp [Statement, OpcodeRow.matchesWord, rowOf, encode, wordXNN_and_class]

theorem drw (x : RegIdx) (y : RegIdx) (n : BitVec 4) : Statement (.drw x y n) := by
  simp [Statement, OpcodeRow.matchesWord, rowOf, encode, wordXYN_and_class]

theorem skp (x : RegIdx) : Statement (.skp x) := by
  simp [Statement, OpcodeRow.matchesWord, rowOf, encode, wordXNN_and_class_nn]

theorem sknp (x : RegIdx) : Statement (.sknp x) := by
  simp [Statement, OpcodeRow.matchesWord, rowOf, encode, wordXNN_and_class_nn]

theorem ldVxDt (x : RegIdx) : Statement (.ldVxDt x) := by
  simp [Statement, OpcodeRow.matchesWord, rowOf, encode, wordXNN_and_class_nn]

theorem ldVxK (x : RegIdx) : Statement (.ldVxK x) := by
  simp [Statement, OpcodeRow.matchesWord, rowOf, encode, wordXNN_and_class_nn]

theorem ldDtVx (x : RegIdx) : Statement (.ldDtVx x) := by
  simp [Statement, OpcodeRow.matchesWord, rowOf, encode, wordXNN_and_class_nn]

theorem ldStVx (x : RegIdx) : Statement (.ldStVx x) := by
  simp [Statement, OpcodeRow.matchesWord, rowOf, encode, wordXNN_and_class_nn]

theorem addI (x : RegIdx) : Statement (.addI x) := by
  simp [Statement, OpcodeRow.matchesWord, rowOf, encode, wordXNN_and_class_nn]

theorem ldF (x : RegIdx) : Statement (.ldF x) := by
  simp [Statement, OpcodeRow.matchesWord, rowOf, encode, wordXNN_and_class_nn]

theorem ldB (x : RegIdx) : Statement (.ldB x) := by
  simp [Statement, OpcodeRow.matchesWord, rowOf, encode, wordXNN_and_class_nn]

theorem ldMemVx (x : RegIdx) : Statement (.ldMemVx x) := by
  simp [Statement, OpcodeRow.matchesWord, rowOf, encode, wordXNN_and_class_nn]

theorem ldVxMem (x : RegIdx) : Statement (.ldVxMem x) := by
  simp [Statement, OpcodeRow.matchesWord, rowOf, encode, wordXNN_and_class_nn]

end Sys2Proof.Laws.EncodesRow
end

