-- ==== Sys2Proof/Tests/Slice0.lean ====
section
/-! SUPPORT. The model's own tests: expected results are from spec/95_test_vectors.md and the examples of
the instruction rules, never from the model. -/

namespace Sys2Proof.Tests

open Sys2Proof.Machine

/-! Ill-formed inputs -/

/-- The decoder takes exactly 2 bytes (R93). -/
theorem test_illformed_word_short : wordBytesWellFormed [0x12] = false := by decide
theorem test_illformed_word_long : wordBytesWellFormed [0x12, 0x34, 0x56] = false := by decide
theorem test_illformed_word_refused :
    decodeBytes [0x00] = .error .malformed ∧ decodeBytes [0x00, 0xE0, 0x00] = .error .malformed := by decide
/-- An image of 3585 bytes is rejected, one of 3584 is not (R69). -/
theorem test_illformed_image : imageWellFormed (List.replicate 3585 0) = false := by
  rw [imageWellFormed, List.length_replicate]; decide
theorem test_wellformed_image : imageWellFormed (List.replicate 3584 0) = true := by
  rw [imageWellFormed, List.length_replicate]; decide
/-- Memories out of canonical form: unsorted, a repeated address, a redundant entry, an address above 0xFFF. -/
theorem test_illformed_memory :
    (Memory.wf [(0x301, 1), (0x300, 1)], Memory.wf [(0x300, 1), (0x300, 2)], Memory.wf [(0x300, 0)],
      Memory.wf [(0x000, 0xF0)], Memory.wf [(0x1000, 1)]) = (false, false, false, false, false) := by decide
theorem test_wellformed_memory : Memory.wf [(0x000, 0x00), (0x300, 1), (0xFFF, 2)] = true := by decide

/-! Decoding: each word is written out from the encoding line of its rule (E1 to E9 for the unknown ones) -/

theorem test_decode_cls : decodeTableWord 16 0b0000000011100000 = some (.cls) := by decide
theorem test_decode_ret : decodeTableWord 16 0b0000000011101110 = some (.ret) := by decide
theorem test_decode_jp : decodeTableWord 16 0b0001001000110100 = some (.jp 0x234) := by decide
theorem test_decode_call : decodeTableWord 16 0b0010101010111100 = some (.call 0xABC) := by decide
theorem test_decode_seImm : decodeTableWord 16 0b0011001101000010 = some (.seImm 3 0x42) := by decide
theorem test_decode_sneImm : decodeTableWord 16 0b0100001101000010 = some (.sneImm 3 0x42) := by decide
theorem test_decode_seReg : decodeTableWord 16 0b0101000100100000 = some (.seReg 1 2) := by decide
theorem test_decode_ldImm : decodeTableWord 16 0b0110101001011111 = some (.ldImm 0xA 0x5F) := by decide
theorem test_decode_addImm : decodeTableWord 16 0b0111001000100000 = some (.addImm 2 0x20) := by decide
theorem test_decode_ldReg : decodeTableWord 16 0b1000000000010000 = some (.ldReg 0 1) := by decide
theorem test_decode_orReg : decodeTableWord 16 0b1000000000010001 = some (.orReg 0 1) := by decide
theorem test_decode_andReg : decodeTableWord 16 0b1000000000010010 = some (.andReg 0 1) := by decide
theorem test_decode_xorReg : decodeTableWord 16 0b1000000000010011 = some (.xorReg 0 1) := by decide
theorem test_decode_addReg : decodeTableWord 16 0b1000000000010100 = some (.addReg 0 1) := by decide
theorem test_decode_sub : decodeTableWord 16 0b1000000000010101 = some (.sub 0 1) := by decide
theorem test_decode_shr : decodeTableWord 16 0b1000000000010110 = some (.shr 0 1) := by decide
theorem test_decode_subn : decodeTableWord 16 0b1000000000010111 = some (.subn 0 1) := by decide
theorem test_decode_shl : decodeTableWord 16 0b1000000000011110 = some (.shl 0 1) := by decide
theorem test_decode_sneReg : decodeTableWord 16 0b1001000100100000 = some (.sneReg 1 2) := by decide
theorem test_decode_ldI : decodeTableWord 16 0b1010000100100011 = some (.ldI 0x123) := by decide
theorem test_decode_jpV0 : decodeTableWord 16 0b1011001100000000 = some (.jpV0 0x300) := by decide
theorem test_decode_rnd : decodeTableWord 16 0b1100001100001111 = some (.rnd 3 0x0F) := by decide
theorem test_decode_drw : decodeTableWord 16 0b1101000000010101 = some (.drw 0 1 5) := by decide
theorem test_decode_skp : decodeTableWord 16 0b1110010110011110 = some (.skp 5) := by decide
theorem test_decode_sknp : decodeTableWord 16 0b1110010110100001 = some (.sknp 5) := by decide
theorem test_decode_ldVxDt : decodeTableWord 16 0b1111010100000111 = some (.ldVxDt 5) := by decide
theorem test_decode_ldVxK : decodeTableWord 16 0b1111001100001010 = some (.ldVxK 3) := by decide
theorem test_decode_ldDtVx : decodeTableWord 16 0b1111010100010101 = some (.ldDtVx 5) := by decide
theorem test_decode_ldStVx : decodeTableWord 16 0b1111010100011000 = some (.ldStVx 5) := by decide
theorem test_decode_addI : decodeTableWord 16 0b1111001000011110 = some (.addI 2) := by decide
theorem test_decode_ldF : decodeTableWord 16 0b1111010000101001 = some (.ldF 4) := by decide
theorem test_decode_ldB : decodeTableWord 16 0b1111011100110011 = some (.ldB 7) := by decide
theorem test_decode_ldMemVx : decodeTableWord 16 0b1111001001010101 = some (.ldMemVx 2) := by decide
theorem test_decode_ldVxMem : decodeTableWord 16 0b1111001001100101 = some (.ldVxMem 2) := by decide
theorem test_decode_unknown_class0 :
    (decode 0x0000, decode 0x0123, decode 0x01E0, decode 0x00E1) = (none, none, none, none) := by decide
theorem test_decode_unknown_low_nibble : (decode 0x5121, decode 0x9121) = (none, none) := by decide
theorem test_decode_unknown_class8 :
    [decode 0x8008, decode 0x8009, decode 0x800A, decode 0x800B, decode 0x800C, decode 0x800D, decode 0x800F] =
      [none, none, none, none, none, none, none] := by decide
theorem test_decode_unknown_classEF :
    (decode 0xE09F, decode 0xF000, decode 0xF01F, decode 0xFFFF) = (none, none, none, none) := by decide
/-- Big-endian: bytes 12 34 are the word 0x1234 (E13). -/
theorem test_decode_big_endian : decodeBytes [0x12, 0x34] = .ok (.jp 0x234) := by decide
theorem test_encode_all_fields : encode (.drw 0xA 0x5 0x3) = 0xDA53 ∧ encode (.jp 0xFED) = 0x1FED := by decide

/-- The spellings of R104, and the shorthand of SHR: without Vy, Y = X (D27). -/
theorem test_assembly_text :
    (assemblyText (.drw 0xA 0x5 0x3), assemblyText (.ldVxMem 0xF), assemblyText (.call 0xABC)) =
      ("DRW VA, V5, 3", "LD VF, [I]", "CALL ABC") := by decide
theorem test_shift_shorthand : encode (shrShorthand 0xA) = 0x8AA6 ∧ encode (shlShorthand 0xA) = 0x8AAE := by decide

/-! One step on a small state -/

/-- The default start state with no key, random byte 0 and no tick presented. -/
def s0 : State := State.reset.present ⟨none, 0, 0⟩

/-- The start state with some registers set. -/
def withRegs (rs : List (RegIdx × Byte)) : State := rs.foldl (fun s r => s.setReg r.1 r.2) s0

/-- The state after one step of the word, placed where the step fetches. -/
def run (w : Nat) (s : State) : State :=
  match step (s.withFetchWord 16 w) with
  | .next t => t
  | .fault _ => s
  | .refused _ => s

/-- R-1 -/
theorem test_cls : (fun t : State => (decide (t.fb = Display.clear), t.outputs.length, t.pc)) (run 0x00E0 (s0.setFb (Display.clear.xorPixel 63 31 true))) = (true, 1, 0x202) := by decide
/-- R-5: with SP = 16 the pop reads S[15] -/
theorem test_ret : (fun t : State => (t.sp, t.pc, t.slot 15)) (run 0x00EE { s0 with sp := 16, stack := s0.stack.set 15 0x345 }) = (15, 0x345, 0x345) := by decide
/-- R-4 -/
theorem test_ret_underflow : (fun t : State => (t.status, t.cause, t.info, t.pc)) (run 0x00EE s0) = (.halted, .stackUnderflow, ⟨0x200, some 0x00EE, none, none⟩, 0x200) := by decide
/-- J1 -/
theorem test_jp : (fun t : State => t.pc) (run 0x1234 s0) = 0x234 := by decide
/-- J3 -/
theorem test_jp_odd : (fun t : State => (t.pc, t.status)) (run 0x1201 s0) = (0x201, .running) := by decide
/-- J5 -/
theorem test_call : (fun t : State => (t.slot 15, t.sp, t.pc)) (run 0x2ABC { s0 with sp := 15 }) = (0x202, 16, 0xABC) := by decide
/-- J6 -/
theorem test_call_overflow : (fun t : State => (t.sp, t.pc, t.cause, t.info)) (run 0x2ABC { s0 with sp := 16 }) = (16, 0x200, .stackOverflow, ⟨0x200, some 0x2ABC, none, none⟩) := by decide
/-- J8: not masked to 12 bits -/
theorem test_jpV0 : (fun t : State => t.pc) (run 0xBFFF (withRegs [(0, 0xFF)])) = 0x10FE := by decide
/-- J9: V0 is the offset, not V5 -/
theorem test_jpV0_base : (fun t : State => t.pc) (run 0xB500 (withRegs [(5, 0x20)])) = 0x500 := by decide
/-- S1 -/
theorem test_seImm_true : (fun t : State => t.pc) (run 0x3342 (withRegs [(3, 0x42)])) = 0x204 := by decide
/-- S2 -/
theorem test_seImm_false : (fun t : State => t.pc) (run 0x3343 (withRegs [(3, 0x42)])) = 0x202 := by decide
/-- S3 -/
theorem test_sneImm_false : (fun t : State => t.pc) (run 0x4342 (withRegs [(3, 0x42)])) = 0x202 := by decide
/-- S4 -/
theorem test_sneImm_true : (fun t : State => t.pc) (run 0x4343 (withRegs [(3, 0x42)])) = 0x204 := by decide
/-- S5 -/
theorem test_seReg_true : (fun t : State => t.pc) (run 0x5120 (withRegs [(1, 7), (2, 7)])) = 0x204 := by decide
/-- S6 -/
theorem test_seReg_false : (fun t : State => t.pc) (run 0x5120 (withRegs [(1, 7), (2, 8)])) = 0x202 := by decide
/-- S8 -/
theorem test_sneReg_true : (fun t : State => t.pc) (run 0x9120 (withRegs [(1, 7), (2, 8)])) = 0x204 := by decide
/-- S9 -/
theorem test_sneReg_same : (fun t : State => t.pc) (run 0x9110 s0) = 0x202 := by decide
/-- S10 -/
theorem test_skp : (fun t : State => t.pc) (run 0xE59E ((withRegs [(5, 0x0A)]).present ⟨some 0xA, 0, 0⟩)) = 0x204 := by decide
/-- S12: a register above 0xF never matches -/
theorem test_skp_high : (fun t : State => t.pc) (run 0xE59E ((withRegs [(5, 0x10)]).present ⟨some 0, 0, 0⟩)) = 0x202 := by decide
/-- S15 -/
theorem test_sknp : (fun t : State => t.pc) (run 0xE0A1 (s0.present ⟨some 0, 0, 0⟩)) = 0x202 := by decide
/-- S14 -/
theorem test_sknp_none : (fun t : State => t.pc) (run 0xE5A1 s0) = 0x204 := by decide
/-- A1 -/
theorem test_ldImm : (fun t : State => (t.reg 0xA, t.pc)) (run 0x6A5F s0) = (0x5F, 0x202) := by decide
/-- A3: no carry flag -/
theorem test_addImm : (fun t : State => (t.reg 2, t.reg 0xF)) (run 0x7220 (withRegs [(2, 0xF0), (0xF, 7)])) = (0x10, 0x07) := by decide
/-- A6 -/
theorem test_ldReg : (fun t : State => (t.reg 0, t.reg 1)) (run 0x8010 (withRegs [(1, 0x33)])) = (0x33, 0x33) := by decide
/-- A7 -/
theorem test_or : (fun t : State => (t.reg 0, t.reg 0xF)) (run 0x8011 (withRegs [(0, 0xF0), (1, 0x0F), (0xF, 5)])) = (0xFF, 0x05) := by decide
/-- A8 -/
theorem test_and : (fun t : State => t.reg 0) (run 0x8012 (withRegs [(0, 0xF0), (1, 0x3C)])) = 0x30 := by decide
/-- A9 -/
theorem test_xor : (fun t : State => t.reg 0) (run 0x8013 (withRegs [(0, 0xF0), (1, 0x3C)])) = 0xCC := by decide
/-- A13: the source is the destination -/
theorem test_addReg_double : (fun t : State => (t.reg 3, t.reg 0xF)) (run 0x8334 (withRegs [(3, 0x90)])) = (0x20, 0x01) := by decide
/-- A14: the flag overwrites the sum -/
theorem test_addReg_vf : (fun t : State => t.reg 0xF) (run 0x8F14 (withRegs [(0xF, 0xFF), (1, 1)])) = 0x01 := by decide
/-- A20 -/
theorem test_sub : (fun t : State => (t.reg 0, t.reg 0xF)) (run 0x8015 (withRegs [(0, 3), (1, 5)])) = (0xFE, 0x00) := by decide
/-- A18: equal operands do not borrow -/
theorem test_sub_equal : (fun t : State => (t.reg 0, t.reg 0xF)) (run 0x8015 (withRegs [(0, 7), (1, 7)])) = (0x00, 0x01) := by decide
/-- A23: V1 ignored -/
theorem test_shr : (fun t : State => (t.reg 0, t.reg 0xF)) (run 0x8016 (withRegs [(0, 4), (1, 0xFF)])) = (0x02, 0x00) := by decide
/-- A25 -/
theorem test_shr_vf : (fun t : State => t.reg 0xF) (run 0x8FF6 (withRegs [(0xF, 3)])) = 0x01 := by decide
/-- A27 -/
theorem test_subn : (fun t : State => (t.reg 0, t.reg 0xF)) (run 0x8017 (withRegs [(0, 3), (1, 5)])) = (0x02, 0x01) := by decide
/-- A28 -/
theorem test_subn_borrow : (fun t : State => (t.reg 0, t.reg 0xF)) (run 0x8017 (withRegs [(0, 5), (1, 3)])) = (0xFE, 0x00) := by decide
/-- A30 -/
theorem test_shl : (fun t : State => (t.reg 0, t.reg 0xF)) (run 0x800E (withRegs [(0, 0x81)])) = (0x02, 0x01) := by decide
/-- A34 -/
theorem test_shl_vf : (fun t : State => t.reg 0xF) (run 0x8FFE (withRegs [(0xF, 0x7F)])) = 0x00 := by decide
/-- N1 -/
theorem test_rnd : (fun t : State => t.reg 3) (run 0xC30F (s0.present ⟨none, 0xAB, 0⟩)) = 0x0B := by decide
/-- D2 -/
theorem test_drw_wraps : (fun t : State => (t.fb[31], t.fb[0], t.reg 0xF, t.outputs.length)) (run 0xD011 { withRegs [(0, 0x3C), (1, 0x1F)] with i := 0x300, mem := [(0x300, 0xFF)] }) = (0xF00000000000000F, 0, 0x00, 1) := by decide
/-- D4 -/
theorem test_drw_collision : (fun t : State => (t.fb.pixel 0 0, t.reg 0xF)) (run 0xD011 { s0.setFb (Display.clear.xorPixel 0 0 true) with i := 0x300, mem := [(0x300, 0x80)] }) = (false, 0x01) := by decide
/-- M1 -/
theorem test_ldI : (fun t : State => t.i) (run 0xA123 s0) = 0x123 := by decide
/-- M3 -/
theorem test_ldVxDt : (fun t : State => t.reg 0xF) (run 0xFF07 (s0.setDt 0x3C)) = 0x3C := by decide
/-- M4 -/
theorem test_ldDtVx : (fun t : State => t.dt) (run 0xF515 (withRegs [(5, 0x10)])) = 0x10 := by decide
/-- M7: writing 0 does not beep -/
theorem test_ldStVx : (fun t : State => (t.st, t.outputs)) (run 0xF018 (s0.setSt 5)) = (0, []) := by decide
/-- M9 -/
theorem test_addI : (fun t : State => (t.i, t.reg 0xF)) (run 0xF21E ((withRegs [(2, 2)]).setI 0x0FFE)) = (0x1000, 0x01) := by decide
/-- M10 -/
theorem test_addI_wraps : (fun t : State => (t.i, t.reg 0xF)) (run 0xF01E ((withRegs [(0, 1)]).setI 0xFFFF)) = (0x0000, 0x01) := by decide
/-- M12 -/
theorem test_ldF : (fun t : State => t.i) (run 0xF429 (withRegs [(4, 0x0A)])) = 0x0032 := by decide
/-- M15, under linear, the default, and under low_nibble -/
theorem test_ldF_policies : ((fun t : State => t.i) (run 0xF029 (withRegs [(0, 0xFF)])), (fun t : State => t.i) (run 0xF029 ((withRegs [(0, 0xFF)]).setFontPolicy .lowNibble))) = (0x04FB, 0x004B) := by decide
/-- M19: the last three bytes of memory -/
theorem test_ldB : (fun t : State => t.mem.readBytes 0xFFD 3) (run 0xF033 ((withRegs [(0, 0xFF)]).setI 0xFFD)) = [2, 5, 5] := by decide
/-- M20 -/
theorem test_ldB_range : (fun t : State => (t.info, t.mem.readBytes 0xFFE 2)) (run 0xF033 ((withRegs [(0, 0xFF)]).setI 0xFFE)) = (⟨0x200, some 0xF033, some 0x1000, some .write⟩, [0, 0]) := by decide
/-- M21 -/
theorem test_ldMemVx : (fun t : State => (t.mem.readBytes 0x300 4, t.i)) (run 0xF255 ((withRegs [(0, 1), (1, 2), (2, 3)]).setI 0x300)) = ([1, 2, 3, 0], 0x300) := by decide
/-- M23 -/
theorem test_ldMemVx_range : (fun t : State => (t.cause, t.info.addr, t.info.kind)) (run 0xFF55 (s0.setI 0xFF1)) = (.outOfRangeAddress, some 0x1000, some .write) := by decide
/-- M27: glyph 0 -/
theorem test_ldVxMem : (fun t : State => [t.reg 0, t.reg 1, t.reg 2, t.reg 3, t.reg 4, t.reg 5]) (run 0xF465 (s0.setI 0)) = [0xF0, 0x90, 0x90, 0x90, 0xF0, 0x00] := by decide
/-- M25 -/
theorem test_ldVxMem_top : (fun t : State => (t.reg 0xF, t.status)) (run 0xFF65 { s0 with i := 0xFF0, mem := [(0xFFF, 0x77)] }) = (0x77, .running) := by decide
/-- K1 -/
theorem test_ldVxK_hold : (fun t : State => (t.pc, t.reg 3, t.status)) (run 0xF30A s0) = (0x200, 0, .running) := by decide
/-- K2 -/
theorem test_ldVxK_key : (fun t : State => (t.pc, t.reg 3)) (run 0xF30A (s0.present ⟨some 7, 0, 0⟩)) = (0x202, 0x07) := by decide

/-! The cycle, the ticker and the ports -/

/-- E10 -/
theorem test_fetch_at_top : (fun t : State => (t.status, t.info, t.pc)) (match step { s0 with pc := 0xFFF } with | .next t => t | .fault _ => s0 | .refused _ => s0) = (.halted, ⟨0xFFF, none, some 0x1000, some .fetch⟩, 0xFFF) := by decide
/-- E1 -/
theorem test_unknown_word : (fun t : State => (t.status, t.cause, t.info)) (match step s0 with | .next t => t | .fault _ => s0 | .refused _ => s0) = (.halted, .unknownOpcode, ⟨0x200, some 0x0000, none, none⟩) := by decide
/-- T3: one beep, at the second tick -/
theorem test_beep : (State.ticks 3 (s0.setSt 2)).outputs = [.beep] := by decide
/-- K4 -/
theorem test_ticks_during_hold : (fun t : State => (t.dt, t.pc)) (run 0xF30A ((s0.setDt 3).present ⟨none, 0, 3⟩)) = (0, 0x200) := by decide
/-- Z2 -/
theorem test_reset_keeps_memory : (fun t : State => (t.status, t.mem.read 0x300, t.fb.pixel 0 0, t.sp)) (({ s0 with sp := 16, mem := [(0x300, 0x55)], fb := Display.clear.xorPixel 0 0 true }.raiseOverflow 0x2200).applyReset {}) = (.running, 0x55, true, 0) := by decide
/-- R69: an odd image keeps its trailing byte -/
theorem test_load_odd : ((s0.load [0x60, 0x12, 0x70]).map fun t => t.mem.readBytes 0x1FF 5) = some [0, 0x60, 0x12, 0x70, 0] := by decide
/-- K1, K5 -/
theorem test_can_proceed : ((s0.withFetchWord 16 0xF30A).canProceed, (s0.withFetchWord 16 0x6000).canProceed) = (false, true) := by decide

/-! The hypotheses of the statements are met: one concrete case for each, at the edge of its range -/

/-- The start state with one word at PC. -/
def placed (w : Word) : State := s0.placeWord w

/-- The encoding lines: a word that has the fixed bits of each row stated. -/
theorem witness_EncodedAs :
    [(0x00E0 : Word) &&& 0xFFFF, 0x1FFF &&& 0xF000, 0x6FFF &&& 0xF000, 0x7FFF &&& 0xF000, 0xCFFF &&& 0xF000] =
      [0x00E0, 0x1000, 0x6000, 0x7000, 0xC000] ∧
    [(0x8FF0 : Word) &&& 0xF00F, 0x8FF1 &&& 0xF00F, 0x8FF2 &&& 0xF00F, 0x8FF3 &&& 0xF00F, 0x8FF4 &&& 0xF00F] =
      [0x8000, 0x8001, 0x8002, 0x8003, 0x8004] ∧
    [(0x8FF5 : Word) &&& 0xF00F, 0x8FF6 &&& 0xF00F, 0x8FF7 &&& 0xF00F, 0x8FFE &&& 0xF00F] =
      [0x8005, 0x8006, 0x8007, 0x800E] ∧
    [(0xFF07 : Word) &&& 0xF0FF, 0xFF0A &&& 0xF0FF, 0xFF15 &&& 0xF0FF, 0xFF18 &&& 0xF0FF, 0xFF33 &&& 0xF0FF] =
      [0xF007, 0xF00A, 0xF015, 0xF018, 0xF033] := by decide

theorem witness_EncodeOfDecode : decode 0xDA53 = some (.drw 0xA 0x5 0x3) := by decide
theorem witness_DecodeAgreesWithTable :
    decode 0xDA53 = some (.drw 0xA 0x5 0x3) ∧ rowOf (.drw 0 0 0) ∈ opcodeTable := by decide

/-- A jump in the last word of memory. -/
theorem witness_StepRunsDecodedInstruction :
    ∃ s t : State, s.status = .running ∧ s.pc.toNat = 0xFFE ∧
      decodeBytes [s.mem.read s.pc.toNat, s.mem.read (s.pc.toNat + 1)] = .ok (.jp 0x234) ∧
      exec (.jp 0x234) s = .next t :=
  ⟨{ s0 with pc := 0xFFE, mem := [(0xFFE, 0x12), (0xFFF, 0x34)] }, _, rfl, rfl, rfl, rfl⟩
theorem witness_HaltedStepDoesNothing : (s0.raiseUnknown 0x0000).status = .halted := rfl
theorem witness_FetchOutOfRangeRaises :
    s0.status = .running ∧ (({ s0 with pc := 0xFFF } : State).status = .running ∧ 0xFFE < (0xFFF : Word).toNat) := by
  decide
theorem witness_UnknownWordRaises :
    s0.status = .running ∧ s0.pc.toNat ≤ 0xFFE ∧ decode s0.fetchWord = none := by decide
theorem witness_FaultIsPrecise :
    ∃ t : State, s0.status = .running ∧ engineStep s0 = .next t ∧ t.status = .halted := ⟨_, rfl, rfl, rfl⟩

theorem witness_RetPopsOrUnderflows :
    (({ s0 with sp := 1 } : State).sp.val = (0 : Fin 16).val + 1) ∧
    (({ s0 with sp := 16 } : State).sp.val = (15 : Fin 16).val + 1) ∧ s0.sp = 0 := by decide
theorem witness_CallPushesOrOverflows :
    (s0.sp.val = (0 : Fin 16).val) ∧ (({ s0 with sp := 15 } : State).sp.val = (15 : Fin 16).val) ∧
    ({ s0 with sp := 16 } : State).sp = 16 := by decide
theorem witness_ReturnFollowsCall :
    ∃ t u : State, s0.sp ≠ 16 ∧ exec (.call 0xABC) s0 = .next t ∧ u.sp = t.sp ∧ ∀ k, u.slot k = t.slot k :=
  ⟨_, _, by decide, rfl, rfl, fun _ => rfl⟩

/-- A key that matches, a key that does not, no key, a register above every key. -/
theorem witness_KeySkips :
    (∃ k, (s0.present ⟨some 0, 0, 0⟩).now.key = some k ∧ ((s0.present ⟨some 0, 0, 0⟩).reg 0).toNat = k.val) ∧
    (¬ ∃ k, (s0.present ⟨some 1, 0, 0⟩).now.key = some k ∧ ((s0.present ⟨some 1, 0, 0⟩).reg 0).toNat = k.val) ∧
    (¬ ∃ k, s0.now.key = some k ∧ (s0.reg 0).toNat = k.val) ∧
    0xF < ((withRegs [(0, 0x10)]).reg 0).toNat := by decide

/-- X may be any register but VF in the result clauses of 8XY4, 8XY5, 8XY6, 8XY7 and 8XYE. -/
theorem witness_flag_operations : (0xE : RegIdx) ≠ 0xF ∧ (0x0 : RegIdx) ≠ 0xF := by decide
/-- The flag's two outcomes of 8XY4, 8XY5 and 8XY7 at their edges. -/
theorem witness_flag_edges :
    (255 < (0xFF : Byte).toNat + (0x01 : Byte).toNat) ∧ (¬ 255 < (0xFF : Byte).toNat + (0x00 : Byte).toNat) ∧
    ((5 : Byte).toNat ≤ (5 : Byte).toNat) ∧ (¬ (6 : Byte).toNat ≤ (5 : Byte).toNat) := by decide

theorem witness_DrwIsOneParallelXor :
    ((0 : BitVec 4) = 0) ∧ (s0.setI 0xFFF).i.toNat + (1 : BitVec 4).toNat ≤ 0x1000 ∧
    (s0.setI 0xFF1).i.toNat + (15 : BitVec 4).toNat ≤ 0x1000 := by decide
theorem witness_DrwOutOfRangeRaises :
    (1 : BitVec 4) ≠ 0 ∧ 0x1000 < (s0.setI 0x1000).i.toNat + (1 : BitVec 4).toNat ∧
    (15 : BitVec 4) ≠ 0 ∧ 0x1000 < (s0.setI 0xFF2).i.toNat + (15 : BitVec 4).toNat := by decide
/-- Glyph 0 on a clear display: every pixel it lands on is unlit, and it has a 1 bit. -/
theorem witness_DrawTwiceRestores :
    (0 : RegIdx) ≠ 0xF ∧ (1 : RegIdx) ≠ 0xF ∧ s0.i.toNat + (5 : BitVec 4).toNat ≤ 0x1000 ∧
    (∀ c r, spriteAt (s0.reg 0).toNat (s0.reg 1).toNat (s0.mem.readBytes s0.i.toNat 5) c r →
      s0.fb.pixel c r = false) ∧
    ∃ c r, spriteAt (s0.reg 0).toNat (s0.reg 1).toNat (s0.mem.readBytes s0.i.toNat 5) c r :=
  ⟨by decide, by decide, by decide, fun c r _ => Display.clear_pixel c r,
    0, 0, 0, 0xF0, 0, by decide, by decide, by decide, by decide, by decide⟩

theorem witness_LdDtVxSetsDelayTimer : s0.reg 0 = 0 := by decide
theorem witness_LdStVxSetsSoundTimer : (withRegs [(0, 1)]).reg 0 = 1 := by decide
theorem witness_AddISetsIndexFlag :
    (0xFFF < ((withRegs [(0, 1)]).setI 0xFFF).i.toNat + (((withRegs [(0, 1)]).setI 0xFFF).reg 0).toNat) ∧
    ¬ (0xFFF < (s0.setI 0xFFF).i.toNat + ((s0.setI 0xFFF).reg 0).toNat) := by decide
/-- A digit, a value above every digit, and each policy. -/
theorem witness_LdFPointsAtGlyph :
    ((withRegs [(0, 0x0F)]).reg 0).toNat ≤ 0xF ∧ s0.fontPolicy = .linear ∧
    (s0.setFontPolicy .lowNibble).fontPolicy = .lowNibble ∧
    ((withRegs [(0, 0x10)]).setFontPolicy .any).fontPolicy = .any ∧
    0xF < (((withRegs [(0, 0x10)]).setFontPolicy .any).reg 0).toNat := by decide
theorem witness_LdBStoresDigits :
    s0.mem.wf = true ∧ (s0.setI 0xFFD).i.toNat + 2 ≤ 0xFFF ∧ 0xFFF < (s0.setI 0xFFE).i.toNat + 2 := by decide
theorem witness_LdMemVxStoresRegisters :
    s0.mem.wf = true ∧ (s0.setI 0xFF0).i.toNat + (0xF : RegIdx).val ≤ 0xFFF ∧
    (s0.setI 0xFFF).i.toNat + (0 : RegIdx).val ≤ 0xFFF ∧
    0xFFF < (s0.setI 0xFF1).i.toNat + (0xF : RegIdx).val ∧ (0xF : RegIdx) ≤ 0xF := by decide
theorem witness_LdVxMemLoadsRegisters :
    (s0.setI 0xFF0).i.toNat + (0xF : RegIdx).val ≤ 0xFFF ∧ (s0.setI 0xFFF).i.toNat + (0 : RegIdx).val ≤ 0xFFF ∧
    0xFFF < (s0.setI 0x1000).i.toNat + (0 : RegIdx).val ∧ (0 : RegIdx) ≤ 0 := by decide
/-- FX55 at 0x200 stores V0 and V1 just where it continues. -/
theorem witness_StoredCodeIsFetched :
    ∃ t : State, (s0.setI 0x202).mem.wf = true ∧ (s0.setI 0x202).i.toNat + (1 : RegIdx).val ≤ 0xFFF ∧
      exec (.ldMemVx 1) (s0.setI 0x202) = .next t ∧ (0 : RegIdx) < 1 ∧
      t.pc.toNat = (s0.setI 0x202).i.toNat + (0 : RegIdx).val := ⟨_, rfl, by decide, rfl, by decide, rfl⟩

theorem witness_LdVxKWaitsForKey :
    s0.now.key = none ∧ (s0.present ⟨some 0xF, 0, 0⟩).now.key = some 0xF := by decide
theorem witness_CannotProceedMeansHold :
    (placed 0xF30A).status = .running ∧ (placed 0xF30A).canProceed = false ∧
    (s0.raiseUnknown 0x0000).canProceed = false := by decide
theorem witness_DelayTimerGrowsOnlyByFx15 :
    ∃ s t : State, step s = .next t ∧ s.dt.toNat < t.dt.toNat :=
  ⟨(withRegs [(0, 5)]).placeWord 0xF015, _, rfl, by decide⟩
theorem witness_BeepExactlyAtZero :
    (s0.setSt 1).st = 1 ∧ ∃ t, engineStep (placed 0x00E0) = .next t := ⟨rfl, _, rfl⟩

theorem witness_PowerOnBuildsMemory : 79 < 80 ∧ 80 ≤ 80 ∧ 80 ≤ 0xFFF ∧ 0xFFF < 0x1000 := by decide
theorem witness_ResetHasDefaultValues : 0x050 ≤ 0x050 := by decide
theorem witness_LoadCopiesImage :
    s0.mem.wf = true ∧ (List.replicate 3584 (0xAA : Byte)).length ≤ 3584 ∧
    3583 < (List.replicate 3584 (0xAA : Byte)).length ∧ 3584 < (List.replicate 3585 (0xAA : Byte)).length := by
  simp only [List.length_replicate]; decide

theorem witness_StepKeepsInvariant : Inv s0 ∧ ∃ t, step s0 = .next t := ⟨⟨rfl, rfl, rfl⟩, _, rfl⟩
/-- The invariant also holds in halted states. -/
theorem witness_StepKeepsInvariant_halted :
    Inv (s0.raiseUnknown 0x0000) ∧ Inv (s0.raiseOutOfRange none 0xFFF .fetch) ∧
    Inv (s0.raiseUnderflow 0x00EE) ∧ Inv (({ s0 with sp := 16 } : State).raiseOverflow 0x2ABC) :=
  ⟨⟨rfl, rfl, _, by decide, rfl⟩, ⟨rfl, rfl, none, 0x1000, .fetch, by decide, by decide, rfl⟩,
    ⟨rfl, rfl, rfl, rfl⟩, ⟨rfl, rfl, rfl, 0xABC, by decide⟩⟩
theorem witness_PortEventsKeepInvariant :
    Inv s0 ∧ (∃ t, s0.handle (.powerOn PowerOnParams.default) = .next t) ∧ (∃ t, s0.handle (.reset {}) = .next t) ∧
    (∃ t, s0.handle (.load [0x12, 0x00]) = .next t) ∧ (∃ t, s0.handle .tick = .next t) ∧
    ∃ t, s0.handle (.step (some 3) 0x55) = .next t :=
  ⟨⟨rfl, rfl, rfl⟩, ⟨_, rfl⟩, ⟨_, rfl⟩, ⟨_, rfl⟩, ⟨_, rfl⟩, _, rfl⟩
/-- PC and a return address at the ends of their reach. -/
theorem witness_StepKeepsPcInReach :
    ∃ s t : State, PcInReach s ∧ s.pc.toNat = 0x10FE ∧ (s.slot 15).toNat = 0x1000 ∧ step s = .next t :=
  ⟨{ s0 with pc := 0x10FE, stack := s0.stack.set 15 0x1000 }, _, by unfold PcInReach; decide, rfl, rfl, rfl⟩

theorem witness_VfFollowsTheFlagRule :
    (∃ t, exec (.ldImm 0 1) s0 = .next t ∧ writesFlag (.ldImm 0 1) = false ∧ namesDest (.ldImm 0 1) 0xF = false) ∧
    ∃ t : State, exec (.addReg 0xF 1) s0 = .next t ∧ writesFlag (.addReg 0xF 1) = true ∧
      s0.status = .running ∧ t.status = .running := ⟨⟨_, rfl, rfl, rfl⟩, _, rfl, rfl, rfl, rfl⟩
/-- The bytes just outside a store. -/
theorem witness_MemoryChangesOnlyByStores :
    (∃ t, exec (.ldB 0) (s0.setI 0x300) = .next t) ∧ ¬ storesTo (.ldB 0) (s0.setI 0x300) 0x2FF ∧
    ¬ storesTo (.ldB 0) (s0.setI 0x300) 0x303 ∧ ¬ storesTo (.ldMemVx 1) (s0.setI 0x300) 0x302 ∧
    ¬ storesTo .cls s0 0 :=
  ⟨⟨_, rfl⟩, by unfold storesTo; decide, by unfold storesTo; decide, by unfold storesTo; decide, fun h => h⟩
theorem witness_StateChangesOnlyByItsWriters :
    (∃ t : State, exec .cls (s0.setFb (Display.clear.xorPixel 0 0 true)) = .next t ∧
      ∃ c r, t.fb.pixel c r ≠ (Display.clear.xorPixel 0 0 true).pixel c r) ∧
    (∃ t : State, exec (.call 0) s0 = .next t ∧ t.sp ≠ s0.sp) ∧ (∃ t : State, exec (.ldI 1) s0 = .next t ∧ t.i ≠ s0.i) ∧
    (∃ t : State, exec (.ldDtVx 0) (withRegs [(0, 1)]) = .next t ∧ t.dt ≠ (withRegs [(0, 1)]).dt) ∧
    ∃ t : State, exec (.ldStVx 0) (withRegs [(0, 1)]) = .next t ∧ t.st ≠ (withRegs [(0, 1)]).st :=
  ⟨⟨_, rfl, 0, 0, by decide⟩, ⟨_, rfl, by decide⟩, ⟨_, rfl, by decide⟩, ⟨_, rfl, by decide⟩, _, rfl, by decide⟩
/-- A completed draw, and a draw that faults. -/
theorem witness_FlushOncePerDisplayInstruction :
    (∃ t : State, s0.status = .running ∧ exec (.drw 0 1 5) s0 = .next t ∧ t.status = .running) ∧
    ∃ t : State, (s0.setI 0x1000).status = .running ∧ exec (.drw 0 1 5) (s0.setI 0x1000) = .next t ∧
      ¬ t.status = .running := ⟨⟨_, rfl, rfl, rfl⟩, _, rfl, rfl, by decide⟩
theorem witness_InputsReachOnlyTheirInstructions :
    (∀ x, Instr.jp 0x234 ≠ .skp x ∧ Instr.jp 0x234 ≠ .sknp x ∧ Instr.jp 0x234 ≠ .ldVxK x) ∧
    (∀ x nn, Instr.jp 0x234 ≠ .rnd x nn) ∧
    ∃ t : State, exec (.jp 0x234) (s0.present ⟨some 3, 0x55, 2⟩) = .next (t.present ⟨some 3, 0x55, 2⟩) :=
  ⟨fun _ => ⟨nofun, nofun, nofun⟩, fun _ _ => nofun, s0.setPc 0x234, rfl⟩

end Sys2Proof.Tests
end

section
/-! PROOFS. Clear (40_clear_and_return.md R120): the encoding of 00E0, the frame of a display update that is
flushed, and what CLS does. -/

namespace Sys2Proof.Machine

/-- A row whose mask fixes every bit stands for one word, its pattern (R101). -/
theorem encodedAs_of_full_mask {p : Word} {f : Views → Instr} (h : decode p = some (f (views p))) :
    EncodedAs 0xFFFF p f := by
  intro w hw
  have hwp : w = p := by rwa [show (0xFFFF : Word) = BitVec.allOnes 16 from rfl, BitVec.and_allOnes] at hw
  rw [hwp, h]

/-- Replacing the grid, flushing it and advancing changes nothing but the display and PC (R35, R179). -/
theorem State.setFb_flush_advance_keeps (s : State) (d : Display) :
    Keeps { display := True } s (s.setFb d).flush.advance := by
  constructor <;> simp

/-- The one event of that update is a flush of the new grid. -/
theorem State.setFb_flush_advance_outputs (s : State) (d : Display) :
    (s.setFb d).flush.advance.outputs = .flush d :: s.outputs := by
  simp

/-- CLS clears the grid, flushes it once and advances (R120). -/
theorem exec_cls (s : State) : exec .cls s = .next (s.setFb Display.clear).flush.advance := rfl

/-- Settles O11: 0x00E0 is the only word of its row, and CLS is one flushed update to the clear grid. -/
theorem clsClearsAndFlushes : Obligations.ClsClearsAndFlushes := by
  refine ⟨encodedAs_of_full_mask rfl, fun s =>
    ⟨(s.setFb Display.clear).flush.advance, exec_cls s, State.setFb_flush_advance_keeps s _, ?_, ?_, ?_⟩⟩
  · intro c r
    simpa using Display.clear_pixel c r
  · exact State.setFb_flush_advance_outputs s Display.clear
  · simpa using pc_add_two s

end Sys2Proof.Machine
end

section
/-! PROOFS. Jumps (41_jumps.md R130): the encoding of a row whose mask is the class nibble, the frame of a
write of PC, and what JP does. -/

namespace Sys2Proof.Machine

/-- A row whose mask fixes the class nibble alone is the arm of `dispatch` for its pattern's class (R95, R101). -/
theorem encodedAs_of_class_mask {p : Word} {f : Views → Instr}
    (h : ∀ v : Views, v.cls = p.extractLsb' 12 4 → dispatch v = some (f v)) : EncodedAs 0xF000 p f :=
  fun w hw => h (views w) (views_of_mask_class hw)

/-- A write of PC changes nothing else (R34). -/
theorem State.setPc_keeps (s : State) (p : Word) : Keeps {} s (s.setPc p) := by
  constructor <;> simp

/-- JP writes PC with NNN, zero-extended, and does not advance (R130). -/
theorem exec_jp (nnn : BitVec 12) (s : State) : exec (.jp nnn) s = .next (s.setPc (addr16 nnn)) := rfl

/-- Settles O13: class 1 is JP with the word's NNN, and JP is one write of PC. -/
theorem jpSetsPc : Obligations.JpSetsPc := by
  refine ⟨encodedAs_of_class_mask fun v hv => ?_, fun s nnn =>
    ⟨s.setPc (addr16 nnn), exec_jp nnn s, State.setPc_keeps s _, addr16_toNat nnn⟩⟩
  simp [dispatch, hv]

end Sys2Proof.Machine
end

section
/-! PROOFS. Register results (43_register_alu.md R152 to R157): the encoding of class 8, what an instruction
that writes one register completes with, and the six instructions that write no flag. -/

namespace Sys2Proof.Machine

/-- Class 8 is told apart by N (R97). -/
theorem dispatch_of_class8 {v : Views} (h : v.cls = 0x8) : dispatch v = dispatch8 v := by
  simp [dispatch, h]

/-- A row of class 8 whose mask fixes the class and N is the arm of `dispatch8` for its pattern's N (R97, R101). -/
theorem encodedAs_of_class8_mask {p : Word} {f : Views → Instr} (hp : p.extractLsb' 12 4 = 0x8)
    (h : ∀ v : Views, v.n = p.extractLsb' 0 4 → dispatch8 v = some (f v)) : EncodedAs 0xF00F p f := by
  intro w hw
  obtain ⟨hcls, hn⟩ := views_of_mask_class_n hw
  exact (dispatch_of_class8 (hcls.trans hp)).trans (h (views w) hn)

/-- What an instruction completes with may be restated by a consequence. -/
theorem Completes.mono {i : Instr} {s : State} {ch : Changes} {P Q : State → Prop}
    (h : Completes i s ch P) (hPQ : ∀ t, P t → Q t) : Completes i s ch Q := by
  obtain ⟨t, hexec, hkeeps, hP⟩ := h
  exact ⟨t, hexec, hkeeps, hPQ t hP⟩

/-- A meaning that is a register result completes with its register, PC and the frame (R150). -/
theorem completes_of_result {i : Instr} {s : State} {x : RegIdx} {b : Byte}
    (h : exec i s = .next (s.result x b)) :
    Completes i s { regs := fun r => r = x } fun t => t.reg x = b ∧ t.pc = pcPlus s 2 :=
  ⟨s.result x b, h, s.result_keeps x b, s.result_reg x b, s.result_pc x b⟩

/-! The register result each instruction is -/

theorem exec_ldImm (x : RegIdx) (nn : Byte) (s : State) : exec (.ldImm x nn) s = .next (s.result x nn) := rfl

theorem exec_addImm (x : RegIdx) (nn : Byte) (s : State) :
    exec (.addImm x nn) s = .next (s.result x (s.reg x + nn)) := rfl

theorem exec_ldReg (x y : RegIdx) (s : State) : exec (.ldReg x y) s = .next (s.result x (s.reg y)) := rfl

theorem exec_orReg (x y : RegIdx) (s : State) :
    exec (.orReg x y) s = .next (s.result x (s.reg x ||| s.reg y)) := rfl

theorem exec_andReg (x y : RegIdx) (s : State) :
    exec (.andReg x y) s = .next (s.result x (s.reg x &&& s.reg y)) := rfl

theorem exec_xorReg (x y : RegIdx) (s : State) :
    exec (.xorReg x y) s = .next (s.result x (s.reg x ^^^ s.reg y)) := rfl

/-- Settles O20: class 6 is LD with the word's X and NN, and LD is the register result NN. -/
theorem ldImmAssigns : Obligations.LdImmAssigns := by
  refine ⟨encodedAs_of_class_mask fun v hv => ?_, fun s x nn => completes_of_result (exec_ldImm x nn s)⟩
  simp [dispatch, hv]

/-- Settles O21: class 7 is ADD with the word's X and NN, and ADD is the register result V[X] + NN, which
wraps at 8 bits. -/
theorem addImmWrapsWithoutFlag : Obligations.AddImmWrapsWithoutFlag := by
  refine ⟨encodedAs_of_class_mask fun v hv => ?_, fun s x nn =>
    (completes_of_result (exec_addImm x nn s)).mono fun t ⟨hreg, hpc⟩ => ⟨?_, hpc⟩⟩
  · simp [dispatch, hv]
  · rw [hreg, BitVec.toNat_add]

/-- Settles O22: class 8 with N = 0 is LD with the word's X and Y, and LD is the register result V[Y]. -/
theorem ldRegCopies : Obligations.LdRegCopies := by
  refine ⟨encodedAs_of_class8_mask rfl fun v hn => ?_, fun s x y => completes_of_result (exec_ldReg x y s)⟩
  simp [dispatch8, hn]

/-- Settles O23: class 8 with N = 1, 2 and 3, each a register result of the word operation, read bit by bit. -/
theorem bitwiseOperations : Obligations.BitwiseOperations := by
  refine ⟨encodedAs_of_class8_mask rfl fun v hn => ?_, encodedAs_of_class8_mask rfl fun v hn => ?_,
    encodedAs_of_class8_mask rfl fun v hn => ?_, fun s x y => ⟨?or, ?and, ?xor⟩⟩
  case or =>
    exact (completes_of_result (exec_orReg x y s)).mono fun t ⟨hreg, hpc⟩ =>
      ⟨fun k => by rw [hreg, BitVec.getLsbD_or], hpc⟩
  case and =>
    exact (completes_of_result (exec_andReg x y s)).mono fun t ⟨hreg, hpc⟩ =>
      ⟨fun k => by rw [hreg, BitVec.getLsbD_and], hpc⟩
  case xor =>
    exact (completes_of_result (exec_xorReg x y s)).mono fun t ⟨hreg, hpc⟩ =>
      ⟨fun k => by rw [hreg, BitVec.getLsbD_xor], hpc⟩
  all_goals simp [dispatch8, hn]

end Sys2Proof.Machine
end

section
/-! PROOFS. Flagged register results (43_register_alu.md R158, R159, R161): the carry and NOT-borrow flags
and the wrapped difference as arithmetic, what an instruction that writes a register and then VF completes
with, and 8XY4, 8XY5 and 8XY7. -/

namespace Sys2Proof.Machine

@[simp] theorem carryFlag_iff (x y : Byte) : carryFlag x y = true ↔ 255 < x.toNat + y.toNat := by
  simp [carryFlag]

@[simp] theorem noBorrowFlag_iff (x y : Byte) : noBorrowFlag x y = true ↔ y.toNat ≤ x.toNat := by
  simp [noBorrowFlag]

/-- The difference of two bytes is the integer difference modulo 256 (R9). -/
theorem byte_sub_toNat (x y : Byte) : ((x - y).toNat : Int) = ((x.toNat : Int) - y.toNat) % 256 := by
  have hx := x.isLt
  have hy := y.isLt
  rw [BitVec.toNat_sub]
  omega

/-- A meaning that is a flagged register result completes with its register unless that is VF, the flag in VF,
PC and the frame (R32, R150). -/
theorem completes_of_resultFlag {i : Instr} {s : State} {x : RegIdx} {b : Byte} {f : Bool}
    (h : exec i s = .next (s.resultFlag x b f)) :
    Completes i s { regs := fun r => r = x ∨ r = 0xF } fun t =>
      (x ≠ 0xF → t.reg x = b) ∧ (t.reg 0xF).toNat = (if f then 1 else 0) ∧ t.pc = pcPlus s 2 :=
  ⟨s.resultFlag x b f, h, s.resultFlag_keeps x b f, s.resultFlag_reg x b f, s.resultFlag_flag x b f,
    s.resultFlag_pc x b f⟩

/-- A meaning that is the difference of two bytes flagged with its NOT-borrow, as arithmetic (R151). -/
theorem completes_of_difference {i : Instr} {s : State} {x : RegIdx} {a b : Byte}
    (h : exec i s = .next (s.resultFlag x (a - b) (noBorrowFlag a b))) :
    Completes i s { regs := fun r => r = x ∨ r = 0xF } fun t =>
      (x ≠ 0xF → ((t.reg x).toNat : Int) = ((a.toNat : Int) - b.toNat) % 256) ∧
      (t.reg 0xF).toNat = (if b.toNat ≤ a.toNat then 1 else 0) ∧ t.pc = pcPlus s 2 :=
  (completes_of_resultFlag h).mono fun t ⟨hreg, hflag, hpc⟩ =>
    ⟨fun hx => by rw [hreg hx, byte_sub_toNat], by simpa only [noBorrowFlag_iff] using hflag, hpc⟩

/-! The flagged result each instruction is -/

theorem exec_addReg (x y : RegIdx) (s : State) :
    exec (.addReg x y) s = .next (s.resultFlag x (s.reg x + s.reg y) (carryFlag (s.reg x) (s.reg y))) := rfl

theorem exec_sub (x y : RegIdx) (s : State) :
    exec (.sub x y) s = .next (s.resultFlag x (s.reg x - s.reg y) (noBorrowFlag (s.reg x) (s.reg y))) := rfl

theorem exec_subn (x y : RegIdx) (s : State) :
    exec (.subn x y) s = .next (s.resultFlag x (s.reg y - s.reg x) (noBorrowFlag (s.reg y) (s.reg x))) := rfl

/-- Settles O24: class 8 with N = 4 is the wrapped sum with the carry of the pre-operation values. -/
theorem addRegSetsCarry : Obligations.AddRegSetsCarry := by
  refine ⟨encodedAs_of_class8_mask rfl fun v hn => ?_, fun s x y =>
    (completes_of_resultFlag (exec_addReg x y s)).mono fun t ⟨hreg, hflag, hpc⟩ =>
      ⟨fun hx => ?_, by simpa only [carryFlag_iff] using hflag, hpc⟩⟩
  · simp [dispatch8, hn]
  · rw [hreg hx, BitVec.toNat_add]

/-- Settles O25: class 8 with N = 5 is the difference V[X] - V[Y] with its NOT-borrow. -/
theorem subSetsNotBorrow : Obligations.SubSetsNotBorrow := by
  refine ⟨encodedAs_of_class8_mask rfl fun v hn => ?_, fun s x y => completes_of_difference (exec_sub x y s)⟩
  simp [dispatch8, hn]

/-- Settles O27: class 8 with N = 7 is the difference V[Y] - V[X] with its NOT-borrow. -/
theorem subnSetsNotBorrow : Obligations.SubnSetsNotBorrow := by
  refine ⟨encodedAs_of_class8_mask rfl fun v hn => ?_, fun s x y => completes_of_difference (exec_subn x y s)⟩
  simp [dispatch8, hn]

end Sys2Proof.Machine
end

section
/-! PROOFS. Flushes (45_draw.md R179): what a register result and a completed DXYN do to the event list, the
two ways 00E0 and DXYN can end, and the silence of every other instruction. -/

namespace Sys2Proof.Machine

@[simp] theorem State.result_outputs (s : State) (x : RegIdx) (b : Byte) : (s.result x b).outputs = s.outputs := rfl

@[simp] theorem State.resultFlag_outputs (s : State) (x : RegIdx) (b : Byte) (f : Bool) :
    (s.resultFlag x b f).outputs = s.outputs := rfl

@[simp] theorem State.drawn_status (s : State) (x y : Nat) (rows : List Byte) :
    (s.drawn x y rows).status = s.status := rfl

/-- The one event of a completed DXYN is a flush of the grid it leaves. -/
theorem State.drawn_outputs (s : State) (x y : Nat) (rows : List Byte) :
    (s.drawn x y rows).outputs = .flush (s.drawn x y rows).fb :: s.outputs := rfl

/-- DXYN is `execDrw`. -/
theorem exec_drw (x y : RegIdx) (n : BitVec 4) (s : State) : exec (.drw x y n) s = execDrw x y n s := rfl

/-- 00E0 and DXYN either complete with one flush of the grid as it then stands, or halt silently. -/
theorem exec_display_cases {i : Instr} {s t : State} (hi : i = .cls ∨ ∃ x y n, i = .drw x y n)
    (h : exec i s = .next t) :
    (t.outputs = .flush t.fb :: s.outputs ∧ t.status = s.status) ∨
      (t.outputs = s.outputs ∧ t.status = .halted) := by
  obtain rfl | ⟨x, y, n, rfl⟩ := hi
  · rw [exec_cls] at h
    cases h
    exact .inl ⟨State.setFb_flush_advance_outputs s Display.clear, by simp⟩
  · rw [exec_drw] at h
    obtain ⟨-, rfl⟩ | ⟨-, -, rfl⟩ := execDrw_cases x y n s t h
    · exact .inl ⟨State.drawn_outputs s _ _ _, State.drawn_status s _ _ _⟩
    · exact .inr ⟨by simp, by simp⟩

/-- Every other instruction emits nothing, whether it completes, raises or holds (R179). -/
theorem exec_outputs_of_not_display {i : Instr} {s t : State} (hi : ¬ (i = .cls ∨ ∃ x y n, i = .drw x y n))
    (h : exec i s = .next t) : t.outputs = s.outputs := by
  cases i with
  | cls => exact absurd (.inl rfl) hi
  | drw x y n => exact absurd (.inr ⟨x, y, n, rfl⟩) hi
  -- The meanings that can raise or hold, by the states they can answer.
  | ret => obtain ⟨_, rfl⟩ | ⟨-, rfl⟩ := execRet_cases s t h <;> simp
  | call nnn => obtain ⟨_, rfl⟩ | ⟨-, rfl⟩ := execCall_cases nnn s t h <;> simp
  | ldB x => obtain ⟨-, rfl⟩ | ⟨-, rfl⟩ := execLdB_cases x s t h <;> simp
  | ldMemVx x => obtain ⟨-, rfl⟩ | ⟨-, rfl⟩ := execLdMemVx_cases x s t h <;> simp
  | ldVxMem x => obtain ⟨-, rfl⟩ | ⟨-, rfl⟩ := execLdVxMem_cases x s t h <;> simp
  | ldVxK x => obtain ⟨-, rfl⟩ | ⟨_, -, rfl⟩ := execLdVxK_cases x s t h <;> simp
  -- Every other meaning is one unconditional update, built of writes that leave the event list alone.
  | _ => cases h; simp

/-- Settles O59: by whether the instruction is 00E0 or DXYN; a flushing end keeps the block running, and the
silent end of a DXYN is a halt. -/
theorem flushOncePerDisplayInstruction : Obligations.FlushOncePerDisplayInstruction := by
  intro i s t hrun h
  by_cases hi : i = .cls ∨ ∃ x y n, i = .drw x y n
  · obtain ⟨hout, hstatus⟩ | ⟨hout, hstatus⟩ := exec_display_cases hi h
    · exact ⟨fun _ _ => hout, fun hn => absurd ⟨hi, hstatus.trans hrun⟩ hn⟩
    · exact ⟨fun _ ht => by simp [hstatus] at ht, fun _ => hout⟩
  · exact ⟨fun hd => absurd hd hi, fun _ => exec_outputs_of_not_display hi h⟩

end Sys2Proof.Machine
end

section
/-! PROOFS. Timers (46_timer_index_memory.md R191 to R193): the encoding of class F, a tick's clamp at 0 and
its beep, and the three instructions that read or write a timer. -/

namespace Sys2Proof.Machine

/-- Class F is told apart by NN (R99). -/
theorem dispatch_of_classF {v : Views} (h : v.cls = 0xF) : dispatch v = dispatchF v := by
  simp [dispatch, h]

/-- A row of class F is the arm of `dispatchF` for its pattern's NN (R99, R101). -/
theorem encodedAs_of_classF_mask {p : Word} {f : Views → Instr} (hp : p.extractLsb' 12 4 = 0xF)
    (h : ∀ v : Views, v.nn = p.extractLsb' 0 8 → dispatchF v = some (f v)) : EncodedAs 0xF0FF p f := by
  intro w hw
  obtain ⟨hcls, hnn⟩ := views_of_mask_class_nn hw
  exact (dispatch_of_classF (hcls.trans hp)).trans (h (views w) hnn)

/-! The tick -/

/-- A stopped timer stays at 0 (R41). -/
@[simp] theorem countDown_zero : countDown 0 = 0 := rfl

/-- A timer reaches 0 by its decrement exactly from 1 (R231). -/
theorem countDown_reaches_zero_iff (t : Byte) : (t ≠ 0 ∧ countDown t = 0) ↔ t = 1 := by
  have hcount := countDown_toNat t
  bv_omega

/-- A tick emits the beep when ST was 1, and no event otherwise (R231). -/
theorem State.tick_outputs (s : State) :
    s.tick.outputs = if s.st = 1 then .beep :: s.outputs else s.outputs := by
  simp only [State.tick, State.setSt_st, countDown_reaches_zero_iff]
  split <;> rfl

/-! The timer update each instruction is, and its frame -/

theorem exec_ldVxDt (x : RegIdx) (s : State) : exec (.ldVxDt x) s = .next (s.result x s.dt) := rfl

theorem exec_ldDtVx (x : RegIdx) (s : State) :
    exec (.ldDtVx x) s = .next (s.setDt (s.reg x)).advance := rfl

theorem exec_ldStVx (x : RegIdx) (s : State) :
    exec (.ldStVx x) s = .next (s.setSt (s.reg x)).advance := rfl

/-- A write of DT changes nothing else but PC (R41). -/
theorem State.setDt_advance_keeps (s : State) (b : Byte) :
    Keeps { dt := True } s (s.setDt b).advance := by
  constructor <;> simp

/-- A write of ST changes nothing else but PC; in particular it emits nothing (R41, R231). -/
theorem State.setSt_advance_keeps (s : State) (b : Byte) :
    Keeps { st := True } s (s.setSt b).advance := by
  constructor <;> simp

/-- Settles O34: class F with NN = 07 is LD Vx, DT, the register result DT. -/
theorem ldVxDtReadsDelayTimer : Obligations.LdVxDtReadsDelayTimer := by
  refine ⟨encodedAs_of_classF_mask rfl fun v hnn => ?_, fun s x => completes_of_result (exec_ldVxDt x s)⟩
  simp [dispatchF, hnn]

/-- Settles O35: class F with NN = 15 is LD DT, Vx, one write of DT; a written 0 is a stopped timer. -/
theorem ldDtVxSetsDelayTimer : Obligations.LdDtVxSetsDelayTimer := by
  refine ⟨encodedAs_of_classF_mask rfl fun v hnn => ?_, fun s x =>
    ⟨(s.setDt (s.reg x)).advance, exec_ldDtVx x s, s.setDt_advance_keeps _, rfl, pc_add_two s, fun hzero => ?_⟩⟩
  · simp [dispatchF, hnn]
  · rw [State.tick_dt, State.advance_dt, State.setDt_dt, hzero, countDown_zero]

/-- Settles O36: class F with NN = 18 is LD ST, Vx, one silent write of ST; the tick after a written 1 takes ST
from 1 to 0. -/
theorem ldStVxSetsSoundTimer : Obligations.LdStVxSetsSoundTimer := by
  refine ⟨encodedAs_of_classF_mask rfl fun v hnn => ?_, fun s x =>
    ⟨(s.setSt (s.reg x)).advance, exec_ldStVx x s, s.setSt_advance_keeps _, rfl, pc_add_two s, rfl,
      fun hone => ?_⟩⟩
  · simp [dispatchF, hnn]
  · have hst : (s.setSt (s.reg x)).advance.st = 1 := hone
    rw [State.tick_outputs, if_pos hst, State.advance_outputs, State.setSt_outputs]

end Sys2Proof.Machine
end

section
/-! PROOFS. Encoding (30_encoding.md R91 to R103): every row of the opcode table is an arm of the dispatch,
an instruction is read back from its encoding, and a known word is the encoding of what it decodes to. -/

namespace Sys2Proof.Machine

/-- The instruction of the same row of the opcode table as `i`, with the operands taken from the views. -/
def Instr.refill : Instr → Views → Instr
  | .cls, _ => .cls
  | .ret, _ => .ret
  | .jp _, v => .jp v.nnn
  | .call _, v => .call v.nnn
  | .seImm _ _, v => .seImm v.x v.nn
  | .sneImm _ _, v => .sneImm v.x v.nn
  | .seReg _ _, v => .seReg v.x v.y
  | .ldImm _ _, v => .ldImm v.x v.nn
  | .addImm _ _, v => .addImm v.x v.nn
  | .ldReg _ _, v => .ldReg v.x v.y
  | .orReg _ _, v => .orReg v.x v.y
  | .andReg _ _, v => .andReg v.x v.y
  | .xorReg _ _, v => .xorReg v.x v.y
  | .addReg _ _, v => .addReg v.x v.y
  | .sub _ _, v => .sub v.x v.y
  | .shr _ _, v => .shr v.x v.y
  | .subn _ _, v => .subn v.x v.y
  | .shl _ _, v => .shl v.x v.y
  | .sneReg _ _, v => .sneReg v.x v.y
  | .ldI _, v => .ldI v.nnn
  | .jpV0 _, v => .jpV0 v.nnn
  | .rnd _ _, v => .rnd v.x v.nn
  | .drw _ _ _, v => .drw v.x v.y v.n
  | .skp _, v => .skp v.x
  | .sknp _, v => .sknp v.x
  | .ldVxDt _, v => .ldVxDt v.x
  | .ldVxK _, v => .ldVxK v.x
  | .ldDtVx _, v => .ldDtVx v.x
  | .ldStVx _, v => .ldStVx v.x
  | .addI _, v => .addI v.x
  | .ldF _, v => .ldF v.x
  | .ldB _, v => .ldB v.x
  | .ldMemVx _, v => .ldMemVx v.x
  | .ldVxMem _, v => .ldVxMem v.x

/-- New operands leave an instruction in its row. -/
theorem rowOf_refill (i : Instr) (v : Views) : rowOf (Instr.refill i v) = rowOf i := by
  cases i <;> rfl

/-- Classes 5 and 9 have one instruction, for N = 0 (R95, D3). -/
theorem encodedAs_of_class_n_mask {p : Word} {f : Views → Instr}
    (h : ∀ v : Views, v.cls = p.extractLsb' 12 4 → v.n = p.extractLsb' 0 4 → dispatch v = some (f v)) :
    EncodedAs 0xF00F p f := by
  intro w hw
  obtain ⟨hcls, hn⟩ := views_of_mask_class_n hw
  exact h (views w) hcls hn

/-- Class E is told apart by NN (R98). -/
theorem dispatch_of_classE {v : Views} (h : v.cls = 0xE) : dispatch v = dispatchE v := by
  simp [dispatch, h]

/-- A row of class E is the arm of `dispatchE` for its pattern's NN (R98, R101). -/
theorem encodedAs_of_classE_mask {p : Word} {f : Views → Instr} (hp : p.extractLsb' 12 4 = 0xE)
    (h : ∀ v : Views, v.nn = p.extractLsb' 0 8 → dispatchE v = some (f v)) : EncodedAs 0xF0FF p f := by
  intro w hw
  obtain ⟨hcls, hnn⟩ := views_of_mask_class_nn hw
  exact (dispatch_of_classE (hcls.trans hp)).trans (h (views w) hnn)

/-- The encoding line of every row: a word with the fixed bits of an instruction's row decodes to the
instruction of that row with the word's own operands (R101). -/
theorem encodedAs_row (i : Instr) : EncodedAs (rowOf i).mask (rowOf i).pattern (Instr.refill i) := by
  cases i <;> dsimp only [rowOf]
  case cls | ret => exact encodedAs_of_full_mask rfl
  case jp | call | seImm | sneImm | ldImm | addImm | ldI | jpV0 | rnd | drw =>
    exact encodedAs_of_class_mask fun v hcls => by simp [dispatch, hcls, Instr.refill]
  case seReg | sneReg =>
    exact encodedAs_of_class_n_mask fun v hcls hn => by simp [dispatch, hcls, hn, Instr.refill]
  case ldReg | orReg | andReg | xorReg | addReg | sub | shr | subn | shl =>
    exact encodedAs_of_class8_mask rfl fun v hn => by simp [dispatch8, hn, Instr.refill]
  case skp | sknp => exact encodedAs_of_classE_mask rfl fun v hnn => by simp [dispatchE, hnn, Instr.refill]
  case ldVxDt | ldVxK | ldDtVx | ldStVx | addI | ldF | ldB | ldMemVx | ldVxMem =>
    exact encodedAs_of_classF_mask rfl fun v hnn => by simp [dispatchF, hnn, Instr.refill]

/-- A word that matches an instruction's row decodes to the instruction of that row with its own operands. -/
theorem decode_of_matches_row {i : Instr} {w : Word} (h : (rowOf i).matchesWord w = true) :
    decode w = some (Instr.refill i (views w)) :=
  encodedAs_row i w (by simpa [OpcodeRow.matchesWord] using h)

/-- An encoding has every bit its instruction's row fixes. -/
theorem rowOf_matches_encode (i : Instr) : (rowOf i).matchesWord (encode i) = true := by
  open Laws.EncodesRow in
  cases i with
  | cls => exact cls
  | ret => exact ret
  | jp nnn => exact jp nnn
  | call nnn => exact call nnn
  | seImm x nn => exact seImm x nn
  | sneImm x nn => exact sneImm x nn
  | seReg x y => exact seReg x y
  | ldImm x nn => exact ldImm x nn
  | addImm x nn => exact addImm x nn
  | ldReg x y => exact ldReg x y
  | orReg x y => exact orReg x y
  | andReg x y => exact andReg x y
  | xorReg x y => exact xorReg x y
  | addReg x y => exact addReg x y
  | sub x y => exact sub x y
  | shr x y => exact shr x y
  | subn x y => exact subn x y
  | shl x y => exact shl x y
  | sneReg x y => exact sneReg x y
  | ldI nnn => exact ldI nnn
  | jpV0 nnn => exact jpV0 nnn
  | rnd x nn => exact rnd x nn
  | drw x y n => exact drw x y n
  | skp x => exact skp x
  | sknp x => exact sknp x
  | ldVxDt x => exact ldVxDt x
  | ldVxK x => exact ldVxK x
  | ldDtVx x => exact ldDtVx x
  | ldStVx x => exact ldStVx x
  | addI x => exact addI x
  | ldF x => exact ldF x
  | ldB x => exact ldB x
  | ldMemVx x => exact ldMemVx x
  | ldVxMem x => exact ldVxMem x

/-- The views of an encoding are the instruction's own operands (R91). -/
theorem refill_views_encode (i : Instr) : Instr.refill i (views (encode i)) = i := by
  cases i with
  | cls | ret => rfl
  | jp | call | ldI | jpV0 => simp [Instr.refill, encode, views_wordNNN]
  | seImm | sneImm | ldImm | addImm | rnd | skp | sknp | ldVxDt | ldVxK | ldDtVx | ldStVx | addI | ldF | ldB | ldMemVx
  | ldVxMem => simp [Instr.refill, encode, views_wordXNN]
  | seReg | ldReg | orReg | andReg | xorReg | addReg | sub | shr | subn | shl | sneReg | drw =>
    simp [Instr.refill, encode, views_wordXYN]

theorem decode_encode (i : Instr) : decode (encode i) = some i := by
  rw [decode_of_matches_row (rowOf_matches_encode i), refill_views_encode]

/-- Settles O1: an encoding matches its row, so it decodes to that row with the encoding's own operands. -/
theorem decodeOfEncode : Obligations.DecodeOfEncode := by
  intro i
  rw [decodeBytes_bytesOfWord, decode_encode]

/-! A word is built again from its fields -/

theorem wordNNN_views {w : Word} {c : BitVec 4} (hc : (views w).cls.toNat = c.toNat) :
    wordNNN c (views w).nnn = w := by
  obtain ⟨hcls, -, -, -, -, hnnn⟩ := views_toNat w
  apply BitVec.eq_of_toNat_eq
  rw [wordNNN_toNat, hnnn]
  omega

theorem wordXNN_views {w : Word} {c : BitVec 4} (hc : (views w).cls.toNat = c.toNat) :
    wordXNN c (views w).x (views w).nn = w := by
  obtain ⟨hcls, hx, -, -, hnn, -⟩ := views_toNat w
  apply BitVec.eq_of_toNat_eq
  rw [wordXNN_toNat, hx, hnn]
  omega

theorem wordXYN_views {w : Word} {c : BitVec 4} (hc : (views w).cls.toNat = c.toNat) :
    wordXYN c (views w).x (views w).y (views w).n = w := by
  obtain ⟨hcls, hx, hy, hn, -, -⟩ := views_toNat w
  apply BitVec.eq_of_toNat_eq
  rw [wordXYN_toNat, hx, hy, hn]
  omega

/-- The same for a field that the row fixes, given by its value. -/
theorem wordXNN_views_of_nn {w : Word} {c : BitVec 4} {nn : Byte} (hc : (views w).cls.toNat = c.toNat)
    (hnn : (views w).nn.toNat = nn.toNat) : wordXNN c (views w).x nn = w := by
  rw [← BitVec.eq_of_toNat_eq hnn, wordXNN_views hc]

theorem wordXYN_views_of_n {w : Word} {c n : BitVec 4} (hc : (views w).cls.toNat = c.toNat)
    (hn : (views w).n.toNat = n.toNat) : wordXYN c (views w).x (views w).y n = w := by
  rw [← BitVec.eq_of_toNat_eq hn, wordXYN_views hc]

/-! The second level of the dispatch, read backwards -/

theorem encode_of_dispatch0 {w : Word} {i : Instr} (hc : (views w).cls.toNat = 0x0)
    (h : dispatch0 (views w) = some i) : encode i = w := by
  unfold dispatch0 at h
  split at h
  · next hx =>
    have hword := fun nn hnn => wordXNN_views_of_nn (c := 0x0) (nn := nn) hc hnn
    rw [hx] at hword
    split at h
    · next hnn => cases h; exact hword 0xE0 hnn
    · next hnn => cases h; exact hword 0xEE hnn
    · cases h
  · cases h

theorem encode_of_dispatch8 {w : Word} {i : Instr} (hc : (views w).cls.toNat = 0x8)
    (h : dispatch8 (views w) = some i) : encode i = w := by
  unfold dispatch8 at h
  split at h <;> cases h
  all_goals
    next hn => exact wordXYN_views_of_n hc hn

theorem encode_of_dispatchE {w : Word} {i : Instr} (hc : (views w).cls.toNat = 0xE)
    (h : dispatchE (views w) = some i) : encode i = w := by
  unfold dispatchE at h
  split at h <;> cases h
  all_goals
    next hnn => exact wordXNN_views_of_nn hc hnn

theorem encode_of_dispatchF {w : Word} {i : Instr} (hc : (views w).cls.toNat = 0xF)
    (h : dispatchF (views w) = some i) : encode i = w := by
  unfold dispatchF at h
  split at h <;> cases h
  all_goals
    next hnn => exact wordXNN_views_of_nn hc hnn

/-- Settles O2: by the class of the word and then the arm its sub-class or NN picks, each of which fixes every
field the encoder writes. -/
theorem encodeOfDecode : Obligations.EncodeOfDecode := by
  intro w i h
  unfold decode dispatch at h
  split at h
  · next hc => exact encode_of_dispatch0 hc h
  · next hc => cases h; exact wordNNN_views hc
  · next hc => cases h; exact wordNNN_views hc
  · next hc => cases h; exact wordXNN_views hc
  · next hc => cases h; exact wordXNN_views hc
  · next hc =>
    split at h
    · next hn => cases h; exact wordXYN_views_of_n hc (congrArg BitVec.toNat hn)
    · cases h
  · next hc => cases h; exact wordXNN_views hc
  · next hc => cases h; exact wordXNN_views hc
  · next hc => exact encode_of_dispatch8 hc h
  · next hc =>
    split at h
    · next hn => cases h; exact wordXYN_views_of_n hc (congrArg BitVec.toNat hn)
    · cases h
  · next hc => cases h; exact wordNNN_views hc
  · next hc => cases h; exact wordNNN_views hc
  · next hc => cases h; exact wordXNN_views hc
  · next hc => cases h; exact wordXYN_views hc
  · next hc => exact encode_of_dispatchE hc h
  · next hc => exact encode_of_dispatchF hc h
  · cases h

/-! The opcode table -/

theorem rowOf_mem_opcodeTable (i : Instr) : rowOf i ∈ opcodeTable := by
  cases i <;> simp [opcodeTable, rowOf]

/-- Every row of the table is the row of some instruction. -/
theorem eq_rowOf_of_mem_opcodeTable {r : OpcodeRow} (h : r ∈ opcodeTable) : ∃ i, r = rowOf i := by
  fin_cases h <;> exact ⟨_, rfl⟩

/-- A word decodes to an instruction only if it matches its row. -/
theorem rowOf_matches_of_decode {w : Word} {i : Instr} (h : decode w = some i) :
    (rowOf i).matchesWord w = true := by
  rw [← encodeOfDecode w i h]
  exact rowOf_matches_encode i

/-- Settles O3: a row that matches a word says what the word decodes to, so it is the row of that instruction;
and a word that decodes matches the row of what it decodes to. -/
theorem decodeAgreesWithTable : Obligations.DecodeAgreesWithTable := by
  refine fun w => ⟨⟨fun hnone r hr => ?_, fun hrows => ?_⟩, fun i hi r hr => ⟨fun hmatch => ?_, ?_⟩⟩
  · obtain ⟨j, rfl⟩ := eq_rowOf_of_mem_opcodeTable hr
    by_contra hmatch
    simp [decode_of_matches_row (Bool.eq_true_of_not_eq_false hmatch)] at hnone
  · by_contra hsome
    obtain ⟨i, hi⟩ := Option.ne_none_iff_exists'.mp hsome
    simpa [rowOf_matches_of_decode hi] using hrows _ (rowOf_mem_opcodeTable i)
  · obtain ⟨j, rfl⟩ := eq_rowOf_of_mem_opcodeTable hr
    have hij : Instr.refill j (views w) = i := Option.some.inj ((decode_of_matches_row hmatch).symm.trans hi)
    rw [← hij, rowOf_refill]
  · rintro rfl
    exact rowOf_matches_of_decode hi

/-- Settles O4: the decoder evaluated on the eleven byte pairs. -/
theorem writtenWordsDecode : Obligations.WrittenWordsDecode := by
  unfold Obligations.WrittenWordsDecode
  decide

end Sys2Proof.Machine
end

section
/-! PROOFS. What any instruction can do: complete within its own writes, or raise with a consistent fault
record. Every whole-machine rule is read off this one case split. -/

namespace Sys2Proof.Machine

/-! Frames -/

/-- `ch` allows no more changes than `ch'`. -/
structure Changes.Within (ch ch' : Changes) : Prop where
  regs : ∀ r, ch.regs r → ch'.regs r
  index : ch.index → ch'.index
  stack : ch.stack → ch'.stack
  dt : ch.dt → ch'.dt
  st : ch.st → ch'.st
  mem : ∀ a, ch.mem a → ch'.mem a
  display : ch.display → ch'.display
  status : ch.status → ch'.status

/-- A frame may be widened. -/
theorem Keeps.mono {ch ch' : Changes} {s t : State} (h : Keeps ch s t) (hch : ch.Within ch') : Keeps ch' s t where
  regs r hr := h.regs r (mt (hch.regs r) hr)
  index hi := h.index (mt hch.index hi)
  sp hs := h.sp (mt hch.stack hs)
  slots hs := h.slots (mt hch.stack hs)
  dt hd := h.dt (mt hch.dt hd)
  st hs := h.st (mt hch.st hs)
  mem a ha := h.mem a (mt (hch.mem a) ha)
  pixels hd := h.pixels (mt hch.display hd)
  outputs hd := h.outputs (mt hch.display hd)
  status hs := h.status (mt hch.status hs)
  cause hs := h.cause (mt hch.status hs)
  info hs := h.info (mt hch.status hs)
  fontPolicy := h.fontPolicy
  inputs := h.inputs
  clock := h.clock

/-- Doing nothing changes nothing. -/
theorem Keeps.refl (ch : Changes) (s : State) : Keeps ch s s := by
  constructor <;> simp

/-- A frame leaves PC out, so the advance stays within it (R35). -/
theorem Keeps.advance {ch : Changes} {s t : State} (h : Keeps ch s t) : Keeps ch s t.advance :=
  ⟨h.regs, h.index, h.sp, h.slots, h.dt, h.st, h.mem, h.pixels, h.outputs, h.status, h.cause, h.info, h.fontPolicy,
    h.inputs, h.clock⟩

/-! The frame of each update an instruction ends in -/

/-- A pop changes the stack and PC only (R121). -/
theorem State.drop_setPc_keeps (s : State) (h : 0 < s.sp.val) (p : Word) :
    Keeps { stack := True } s ((s.drop h).setPc p) := by
  constructor <;> simp

/-- A push changes the stack and PC only (R131). -/
theorem State.push_setPc_keeps (s : State) (h : s.sp.val < 16) (a p : Word) :
    Keeps { stack := True } s ((s.push h a).setPc p) := by
  constructor <;> simp

/-- A completed DXYN changes VF, the display and PC only (R175). -/
theorem State.drawn_keeps (s : State) (x y : Nat) (rows : List Byte) :
    Keeps { regs := fun r => r = 0xF, display := True } s (s.drawn x y rows) := by
  constructor <;> simp +contextual [State.drawn, State.setFlag_reg]

/-- A write of I changes nothing else but PC (R38). -/
theorem State.setI_advance_keeps (s : State) (a : Word) : Keeps { index := True } s (s.setI a).advance := by
  constructor <;> simp

/-- FX1E's update changes I, VF and PC only (R194). -/
theorem State.setI_setFlag_advance_keeps (s : State) (a : Word) (f : Bool) :
    Keeps { regs := fun r => r = 0xF, index := True } s ((s.setI a).setFlag f).advance := by
  constructor <;> simp +contextual [State.setFlag_reg]

/-- Storing bytes changes the bytes of the range only (R70). -/
theorem State.storeBytes_keeps (s : State) (base : Nat) (bs : List Byte) :
    Keeps { mem := fun a => base ≤ a ∧ a < base + bs.length } s (s.setMem (s.mem.writeBytes base bs)) := by
  constructor <;> simp
  exact fun a ha => Memory.read_writeBytes_other _ _ _ _ (by omega)

/-- A block store and the advance after it. -/
theorem State.storeBytes_advance_keeps (s : State) (base : Nat) (bs : List Byte) :
    Keeps { mem := fun a => base ≤ a ∧ a < base + bs.length } s (s.setMem (s.mem.writeBytes base bs)).advance :=
  (s.storeBytes_keeps base bs).advance

/-- A block load changes V0 to VX and PC only (R199). -/
theorem State.loadedRegs_advance_keeps (s : State) (x : RegIdx) (base : Nat) :
    Keeps { regs := fun r => r ≤ x } s (s.setRegs (s.loadedRegs x base)).advance := by
  constructor <;> simp
  exact fun r hr => (State.setRegs_loadedRegs_reg s x base r).trans (if_neg (Nat.not_le.mpr hr))

/-! The writes an instruction may make -/

/-- What an instruction may change when it completes: the registers it names and VF as its flag, the
addresses it stores to, and the state its rule writes (R31, R32, R38 to R44, R61). -/
def Instr.writes (i : Instr) (s : State) : Changes where
  regs r := namesDest i r = true ∨ (writesFlag i = true ∧ r = 0xF)
  index := (∃ nnn, i = .ldI nnn) ∨ (∃ x, i = .addI x) ∨ ∃ x, i = .ldF x
  stack := i = .ret ∨ ∃ nnn, i = .call nnn
  dt := ∃ x, i = .ldDtVx x
  st := ∃ x, i = .ldStVx x
  mem := storesTo i s
  display := i = .cls ∨ ∃ x y n, i = .drw x y n

/-! Raising leaves a consistent record (R220, R224) -/

theorem faultRecordOk_raiseUnknown (s : State) {w : Word} (h : decode w = none) : FaultRecordOk (s.raiseUnknown w) :=
  ⟨rfl, w, h, rfl⟩

theorem faultRecordOk_raiseOutOfRange (s : State) {w : Option Word} {base : Nat} {k : AccessKind}
    (h : w = none ↔ k = .fetch) : FaultRecordOk (s.raiseOutOfRange w base k) :=
  ⟨rfl, w, max base 0x1000, k, Nat.le_max_right _ _, h, rfl⟩

theorem faultRecordOk_raiseOverflow {s : State} (h : s.sp = 16) (nnn : BitVec 12) :
    FaultRecordOk (s.raiseOverflow (encode (.call nnn))) :=
  ⟨rfl, h, nnn, rfl⟩

theorem faultRecordOk_raiseUnderflow {s : State} (h : s.sp = 0) : FaultRecordOk (s.raiseUnderflow 0x00EE) :=
  ⟨rfl, h, rfl⟩

/-- `t` is `s` after an exception: only STATUS, FAULT_CAUSE and FAULT_INFO written, and consistently. -/
def Faulted (s t : State) : Prop := ∃ c f, t = s.raise c f ∧ FaultRecordOk t

/-- A meaning whose frame lies within the instruction's writes completes within them. -/
theorem completedWithin {i : Instr} {ch : Changes} {s t : State} (h : Keeps ch s t)
    (hch : ch.Within (Instr.writes i s) := by
      constructor <;> simp +contextual [Instr.writes, namesDest, writesFlag, storesTo]) :
    Keeps (Instr.writes i s) s t ∨ Faulted s t :=
  .inl (h.mono hch)

/-- Every instruction completes within its writes or raises with a consistent record. -/
theorem exec_cases {i : Instr} {s t : State} (h : exec i s = .next t) :
    Keeps (Instr.writes i s) s t ∨ Faulted s t := by
  cases i with
  -- The meanings that can raise or hold, by the states they can answer.
  | ret =>
    obtain ⟨hsp, rfl⟩ | ⟨hsp, rfl⟩ := execRet_cases s t h
    · exact completedWithin (s.drop_setPc_keeps hsp _)
    · exact .inr ⟨_, _, rfl, faultRecordOk_raiseUnderflow hsp⟩
  | call nnn =>
    obtain ⟨hsp, rfl⟩ | ⟨hsp, rfl⟩ := execCall_cases nnn s t h
    · exact completedWithin (s.push_setPc_keeps hsp _ _)
    · exact .inr ⟨_, _, rfl, faultRecordOk_raiseOverflow hsp nnn⟩
  | drw x y n =>
    obtain ⟨-, rfl⟩ | ⟨-, -, rfl⟩ := execDrw_cases x y n s t h
    · exact completedWithin (s.drawn_keeps _ _ _)
    · exact .inr ⟨_, _, rfl, faultRecordOk_raiseOutOfRange s (by simp)⟩
  | ldB x =>
    obtain ⟨-, rfl⟩ | ⟨-, rfl⟩ := execLdB_cases x s t h
    · exact completedWithin (s.storeBytes_advance_keeps _ _)
    · exact .inr ⟨_, _, rfl, faultRecordOk_raiseOutOfRange s (by simp)⟩
  | ldMemVx x =>
    obtain ⟨-, rfl⟩ | ⟨-, rfl⟩ := execLdMemVx_cases x s t h
    · exact completedWithin (s.storeBytes_advance_keeps _ _)
    · exact .inr ⟨_, _, rfl, faultRecordOk_raiseOutOfRange s (by simp)⟩
  | ldVxMem x =>
    obtain ⟨-, rfl⟩ | ⟨-, rfl⟩ := execLdVxMem_cases x s t h
    · exact completedWithin (s.loadedRegs_advance_keeps x _)
    · exact .inr ⟨_, _, rfl, faultRecordOk_raiseOutOfRange s (by simp)⟩
  | ldVxK x =>
    obtain ⟨-, rfl⟩ | ⟨k, -, rfl⟩ := execLdVxK_cases x s t h
    · exact completedWithin (Keeps.refl {} t)
    · exact completedWithin (s.result_keeps x _)
  -- Every other meaning is one unconditional update.
  | cls =>
    cases h
    exact completedWithin (s.setFb_flush_advance_keeps _)
  | jp | jpV0 =>
    cases h
    exact completedWithin (s.setPc_keeps _)
  | seImm | sneImm | seReg | sneReg | skp | sknp =>
    cases h
    exact completedWithin (s.skipIf_keeps _)
  | ldImm | addImm | ldReg | orReg | andReg | xorReg | rnd | ldVxDt =>
    cases h
    exact completedWithin (s.result_keeps _ _)
  | addReg | sub | shr | subn | shl =>
    cases h
    exact completedWithin (s.resultFlag_keeps _ _ _)
  | ldI | ldF =>
    cases h
    exact completedWithin (s.setI_advance_keeps _)
  | addI =>
    cases h
    exact completedWithin (s.setI_setFlag_advance_keeps _ _)
  | ldDtVx =>
    cases h
    exact completedWithin (s.setDt_advance_keeps _)
  | ldStVx =>
    cases h
    exact completedWithin (s.setSt_advance_keeps _)

/-- Whether an instruction completes or raises, what lies outside its writes and the fault state is kept. -/
theorem exec_keeps {i : Instr} {s t : State} (h : exec i s = .next t) :
    Keeps { Instr.writes i s with status := True } s t := by
  obtain hkeeps | ⟨c, f, rfl, -⟩ := exec_cases h
  · exact hkeeps.mono (by constructor <;> simp [Instr.writes])
  · exact (s.raise_keeps c f).mono (by constructor <;> simp)

end Sys2Proof.Machine
end

section
/-! PROOFS. The instruction cycle and the invariants (30_encoding.md R106 to R108, 60_exceptions.md R220 to
R233): what an engine step answers, precise faults, canonical memory, a consistent fault record, and how far
PC can get. -/

namespace Sys2Proof.Machine

/-! The fault record -/

/-- While the block runs, a consistent record is the empty one (R49). -/
theorem faultRecordOk_of_running_iff {s : State} (h : s.status = .running) :
    FaultRecordOk s ↔ s.cause = .none ∧ s.info = FaultInfo.absent := by
  unfold FaultRecordOk
  cases s.cause <;> simp [h]

/-- A consistent record of a halted block names a cause and the faulting instruction's address (R224). -/
theorem FaultRecordOk.of_halted {s : State} (h : FaultRecordOk s) (hs : s.status = .halted) :
    s.cause ≠ .none ∧ s.info.pc = s.pc := by
  unfold FaultRecordOk at h
  cases hc : s.cause <;> simp only [hc] at h
  case none => simp [hs] at h
  case unknownOpcode => obtain ⟨-, w, -, hinfo⟩ := h; simp [hinfo]
  case outOfRangeAddress => obtain ⟨-, w, a, k, -, -, hinfo⟩ := h; simp [hinfo]
  case stackOverflow => obtain ⟨-, -, nnn, hinfo⟩ := h; simp [hinfo]
  case stackUnderflow => obtain ⟨-, -, hinfo⟩ := h; simp [hinfo]

/-- The consistency of the record is about these five fields only. -/
theorem FaultRecordOk.congr {s t : State} (h : FaultRecordOk s) (hstatus : t.status = s.status)
    (hcause : t.cause = s.cause) (hinfo : t.info = s.info) (hpc : t.pc = s.pc) (hsp : t.sp = s.sp) :
    FaultRecordOk t := by
  unfold FaultRecordOk
  rw [hstatus, hcause, hinfo, hpc, hsp]
  exact h

/-! The engine step by the state it starts in -/

theorem engineStep_of_halted {s : State} (h : s.status = .halted) : engineStep s = .next s := by
  simp [engineStep, h]

theorem engineStep_of_fetch_out_of_range {s : State} (hrun : s.status = .running) (hpc : 0xFFE < s.pc.toNat) :
    engineStep s = .next (s.raiseOutOfRange none s.pc.toNat .fetch) := by
  rcases engineStep_cases s with ⟨hs, -⟩ | ⟨-, -, h⟩ | ⟨-, hle, -⟩ | ⟨-, hle, -⟩
  · simp [hrun] at hs
  · exact h
  all_goals omega

theorem engineStep_of_unknown {s : State} (hrun : s.status = .running) (hpc : s.pc.toNat ≤ 0xFFE)
    (hd : decode s.fetchWord = none) : engineStep s = .next (s.raiseUnknown s.fetchWord) := by
  rcases engineStep_cases s with ⟨hs, -⟩ | ⟨-, hlt, -⟩ | ⟨-, -, -, h⟩ | ⟨-, -, i, hi, -⟩
  · simp [hrun] at hs
  · omega
  · exact h
  · simp [hd] at hi

theorem engineStep_of_decode {s : State} {i : Instr} (hrun : s.status = .running) (hpc : s.pc.toNat ≤ 0xFFE)
    (hd : decode s.fetchWord = some i) : engineStep s = exec i s := by
  rcases engineStep_cases s with ⟨hs, -⟩ | ⟨-, hlt, -⟩ | ⟨-, -, hn, -⟩ | ⟨-, -, j, hj, h⟩
  · simp [hrun] at hs
  · omega
  · simp [hd] at hn
  · rw [h, Option.some.inj (hj.symm.trans hd)]

/-- The bytes at PC decode to what the word at PC decodes to. -/
theorem State.decode_fetchWord_of_decodeBytes {s : State} {i : Instr} (h : decodeBytes s.fetchBytes = .ok i) :
    decode s.fetchWord = some i := by
  rw [State.decodeBytes_fetchBytes] at h
  cases hd : decode s.fetchWord with
  | none => simp [hd] at h
  | some j => simpa [hd] using h

/-- A step is the engine step, the ticks that follow it and the move of the input list (R232). -/
theorem step_of_engineStep {s t : State} (h : engineStep s = .next t) :
    step s = .next (State.ticks s.now.ticks t).nextInputs := by
  rw [step_next_iff]
  exact ⟨t, h, by rw [State.settle, State.runTicks_eq_ticks]⟩

/-- Settles O5: the fetched bytes decode to i, so the engine step is exec of i. -/
theorem stepRunsDecodedInstruction : Obligations.StepRunsDecodedInstruction := by
  intro s t i hrun hpc hbytes
  have heng := engineStep_of_decode hrun hpc (State.decode_fetchWord_of_decodeBytes hbytes)
  exact ⟨heng, fun h => step_of_engineStep (heng.trans h)⟩

/-- Settles O6: a halted engine step answers the same state. -/
theorem haltedStepDoesNothing : Obligations.HaltedStepDoesNothing :=
  fun _ hs => ⟨engineStep_of_halted hs, step_of_engineStep (engineStep_of_halted hs)⟩

/-- Settles O7: the range check comes first and raises in the state the step started from. -/
theorem fetchOutOfRangeRaises : Obligations.FetchOutOfRangeRaises :=
  fun s hrun hpc => ⟨_, engineStep_of_fetch_out_of_range hrun hpc, rfl, rfl, rfl, rfl, s.raise_keeps _ _⟩

/-- Settles O8: an unknown word raises in the state the step started from. -/
theorem unknownWordRaises : Obligations.UnknownWordRaises :=
  fun s hrun hpc hd => ⟨_, engineStep_of_unknown hrun hpc hd, rfl, rfl, rfl, rfl, s.raise_keeps _ _⟩

/-- Every instruction has a meaning: none faults or is refused (R103). -/
theorem exec_next (i : Instr) (s : State) : ∃ t, exec i s = .next t := by
  cases i <;> exact ⟨_, rfl⟩

theorem engineStep_next (s : State) : ∃ t, engineStep s = .next t := by
  rcases engineStep_cases s with ⟨-, h⟩ | ⟨-, -, h⟩ | ⟨-, -, -, h⟩ | ⟨-, -, i, -, h⟩
  · exact ⟨_, h⟩
  · exact ⟨_, h⟩
  · exact ⟨_, h⟩
  · rw [h]
    exact exec_next i s

/-- Settles O9: every engine step answers a next state, and so does the step around it. -/
theorem everyStepAnswersNext : Obligations.EveryStepAnswersNext := by
  intro s
  obtain ⟨t, h⟩ := engineStep_next s
  exact ⟨_, step_of_engineStep h⟩

/-- An engine step of a running block runs an instruction that completes within its writes, or faults. -/
theorem engineStep_running_cases {s t : State} (hrun : s.status = .running) (h : engineStep s = .next t) :
    (∃ i, decode s.fetchWord = some i ∧ Keeps (Instr.writes i s) s t) ∨ Faulted s t := by
  rcases engineStep_cases s with ⟨hs, -⟩ | ⟨-, -, heng⟩ | ⟨-, -, hd, heng⟩ | ⟨-, -, i, hi, heng⟩
  · simp [hrun] at hs
  · cases heng.symm.trans h
    exact .inr ⟨_, _, rfl, faultRecordOk_raiseOutOfRange s (by simp)⟩
  · cases heng.symm.trans h
    exact .inr ⟨_, _, rfl, faultRecordOk_raiseUnknown s hd⟩
  · exact (exec_cases (heng.symm.trans h)).imp_left fun hkeeps => ⟨i, hi, hkeeps⟩

/-- Settles O10: an instruction that completes keeps STATUS, so a step that halts the block raised. -/
theorem faultIsPrecise : Obligations.FaultIsPrecise := by
  intro s t hrun h hhalt
  obtain ⟨i, -, hkeeps⟩ | ⟨c, f, rfl, hok⟩ := engineStep_running_cases hrun h
  · have hstatus : t.status = s.status := hkeeps.status not_false
    simp [hstatus, hrun] at hhalt
  · obtain ⟨hcause, hpc⟩ := hok.of_halted hhalt
    exact ⟨hcause, hpc, rfl, s.raise_keeps c f⟩

/-! The invariant -/

@[simp] theorem State.result_mem (s : State) (x : RegIdx) (b : Byte) : (s.result x b).mem = s.mem := rfl

@[simp] theorem State.resultFlag_mem (s : State) (x : RegIdx) (b : Byte) (f : Bool) :
    (s.resultFlag x b f).mem = s.mem := rfl

@[simp] theorem State.drawn_mem (s : State) (x y : Nat) (rows : List Byte) : (s.drawn x y rows).mem = s.mem := rfl

/-- Every instruction keeps memory canonical: FX33 and FX55 store within memory, and nothing else stores. -/
theorem exec_mem_wf {i : Instr} {s t : State} (h : exec i s = .next t) (hw : s.mem.wf = true) :
    t.mem.wf = true := by
  cases i with
  | ldB x =>
    obtain ⟨hin, rfl⟩ | ⟨-, rfl⟩ := execLdB_cases x s t h
    · exact Memory.wf_writeBytes _ _ _ (by simp [Config.memSize]; omega) hw
    · simpa using hw
  | ldMemVx x =>
    obtain ⟨hin, rfl⟩ | ⟨-, rfl⟩ := execLdMemVx_cases x s t h
    · exact Memory.wf_writeBytes _ _ _ (by simp [Config.memSize]; omega) hw
    · simpa using hw
  | ret => obtain ⟨_, rfl⟩ | ⟨-, rfl⟩ := execRet_cases s t h <;> simpa using hw
  | call nnn => obtain ⟨_, rfl⟩ | ⟨-, rfl⟩ := execCall_cases nnn s t h <;> simpa using hw
  | drw x y n => obtain ⟨-, rfl⟩ | ⟨-, -, rfl⟩ := execDrw_cases x y n s t h <;> simpa using hw
  | ldVxMem x => obtain ⟨-, rfl⟩ | ⟨-, rfl⟩ := execLdVxMem_cases x s t h <;> simpa using hw
  | ldVxK x => obtain ⟨-, rfl⟩ | ⟨_, -, rfl⟩ := execLdVxK_cases x s t h <;> simpa using hw
  | _ => cases h; simpa using hw

theorem engineStep_mem_wf {s t : State} (h : engineStep s = .next t) (hw : s.mem.wf = true) : t.mem.wf = true := by
  rcases engineStep_cases s with ⟨-, heng⟩ | ⟨-, -, heng⟩ | ⟨-, -, -, heng⟩ | ⟨-, -, i, -, heng⟩
  · cases heng.symm.trans h; exact hw
  · cases heng.symm.trans h; exact hw
  · cases heng.symm.trans h; exact hw
  · exact exec_mem_wf (heng.symm.trans h) hw

/-- A completed step leaves the empty record, a faulting one its own, a halted one the record it found. -/
theorem engineStep_faultRecordOk {s t : State} (h : engineStep s = .next t) (hok : FaultRecordOk s) :
    FaultRecordOk t := by
  cases hs : s.status with
  | halted =>
    cases (engineStep_of_halted hs).symm.trans h
    exact hok
  | running =>
    obtain ⟨i, -, hkeeps⟩ | ⟨-, -, -, ht⟩ := engineStep_running_cases hs h
    · rw [faultRecordOk_of_running_iff ((hkeeps.status not_false).trans hs), hkeeps.cause not_false,
        hkeeps.info not_false]
      exact (faultRecordOk_of_running_iff hs).mp hok
    · exact ht

/-- Ticks and the move of the input list keep the invariant (R230). -/
theorem Inv.settle {s : State} (h : Inv s) (n : Nat) : Inv (s.settle n) := by
  obtain ⟨hw, hok⟩ := h
  exact ⟨by simpa using hw, hok.congr (by simp) (by simp) (by simp) (by simp) (by simp)⟩

/-- Settles O53: the engine step keeps both halves, and what follows it touches neither. -/
theorem stepKeepsInvariant : Obligations.StepKeepsInvariant := by
  intro s t ⟨hw, hok⟩ h
  obtain ⟨u, heng, rfl⟩ := (step_next_iff s t).mp h
  exact Inv.settle ⟨engineStep_mem_wf heng hw, engineStep_faultRecordOk heng hok⟩ _

/-- A reset makes any state with canonical memory meet the invariant (R251). -/
theorem inv_applyReset {s : State} (h : s.mem.wf = true) (r : ResetState) : Inv (s.applyReset r) :=
  ⟨h, rfl, rfl⟩

/-- The constructed memory is canonical: its font and fill are exactly memory's bytes (R250). -/
theorem constructedMemory_wf (p : PowerOnParams) : (constructedMemory p).wf = true :=
  Memory.wf_writeBytes [] 0 _ (by rw [List.length_append, Vector.length_toList, List.length_replicate]; decide) rfl

/-- A load stores an image that fits at 0x200, and rejects any other (R69). -/
theorem load_eq_some_iff (s t : State) (image : List Byte) :
    s.load image = some t ↔ image.length ≤ 3584 ∧ t = s.setMem (s.mem.writeBytes 0x200 image) := by
  rw [State.load, imageWellFormed, Option.ite_none_right_eq_some, decide_eq_true_iff, Option.some.injEq,
    eq_comm (b := t)]
  rfl

/-- An image that fits ends within memory, so storing it keeps memory canonical. -/
theorem wf_writeBytes_image {m : Memory} {image : List Byte} (hlen : image.length ≤ 3584) (hw : m.wf = true) :
    (m.writeBytes 0x200 image).wf = true :=
  Memory.wf_writeBytes _ _ _ (by simp only [Config.memSize]; omega) hw

/-- Settles O54: by the event; power-on and reset clear the fault record, a load and a tick leave it, and a step
presents its samples first, which neither half of the invariant reads. -/
theorem portEventsKeepInvariant : Obligations.PortEventsKeepInvariant := by
  intro s t e ⟨hw, hok⟩ h
  cases e with
  | powerOn p =>
    cases h
    exact inv_applyReset (constructedMemory_wf p) _
  | reset r =>
    cases h
    exact inv_applyReset hw r
  | load image =>
    cases h
    cases hl : s.load image with
    | none => exact ⟨hw, hok⟩
    | some u =>
      obtain ⟨hlen, rfl⟩ := (load_eq_some_iff s u image).mp hl
      exact ⟨wf_writeBytes_image hlen hw, hok.congr rfl rfl rfl rfl rfl⟩
  | step key rand => exact stepKeepsInvariant (s.present _) t ⟨hw, hok.congr rfl rfl rfl rfl rfl⟩ h
  | tick =>
    cases h
    exact ⟨by simpa using hw, hok.congr (by simp) (by simp) (by simp) (by simp) (by simp)⟩

/-! How far PC can get (R37) -/

/-- Of the slots only the one a call pushes can change, and it gets PC + 2. -/
theorem exec_slot_cases {i : Instr} {s t : State} (h : exec i s = .next t) (k : Fin 16) :
    t.slot k = s.slot k ∨ t.slot k = s.pc + 2 := by
  by_cases hi : i = .ret ∨ ∃ nnn, i = .call nnn
  · obtain rfl | ⟨nnn, rfl⟩ := hi
    · obtain ⟨_, rfl⟩ | ⟨-, rfl⟩ := execRet_cases s t h <;> exact .inl rfl
    · obtain ⟨hsp, rfl⟩ | ⟨-, rfl⟩ := execCall_cases nnn s t h
      · rw [State.setPc_slot, State.push_slot]
        exact (ite_eq_or_eq _ _ _).symm
      · exact .inl rfl
  · exact .inl ((exec_keeps h).slots hi k)

/-- A pop reads the slot below SP. -/
theorem State.top_eq_slot (s : State) (h : 0 < s.sp.val) : s.top h = s.slot ⟨s.sp.val - 1, by omega⟩ := rfl

/-- A skip moves PC by at most 4. -/
theorem State.skipIf_pc_le (s : State) (c : Bool) : (s.skipIf c).pc.toNat ≤ s.pc.toNat + 4 := by
  rw [State.skipIf_pc]
  split <;> rw [BitVec.toNat_add] <;> simp <;> omega

/-- From a fetched instruction PC goes no further than 0xFFF + 0xFF, the target of a BNNN. -/
theorem exec_pc_le {i : Instr} {s t : State} (h : exec i s = .next t) (hpc : s.pc.toNat ≤ 0xFFE)
    (hslots : ∀ k, (s.slot k).toNat ≤ 0x1000) : t.pc.toNat ≤ 0x10FE := by
  have hadvance : (s.pc + 2).toNat ≤ 0x10FE := by
    rw [BitVec.toNat_add]
    simp
    omega
  cases i with
  | ret =>
    obtain ⟨hsp, rfl⟩ | ⟨-, rfl⟩ := execRet_cases s t h
    · have := hslots ⟨s.sp.val - 1, by omega⟩
      rw [State.setPc_pc, State.top_eq_slot]
      omega
    · exact hpc.trans (by omega)
  | call nnn =>
    obtain ⟨_, rfl⟩ | ⟨-, rfl⟩ := execCall_cases nnn s t h
    · have := nnn.isLt
      rw [State.setPc_pc, addr16_toNat]
      omega
    · exact hpc.trans (by omega)
  | jp nnn =>
    cases h
    have := nnn.isLt
    rw [State.setPc_pc, addr16_toNat]
    omega
  | jpV0 nnn =>
    cases h
    have := nnn.isLt
    have := (s.reg 0).isLt
    simp only [State.setPc_pc, BitVec.toNat_add, addr16_toNat, BitVec.toNat_setWidth]
    omega
  | seImm | sneImm | seReg | sneReg | skp | sknp =>
    cases h
    exact (s.skipIf_pc_le _).trans (by omega)
  | drw x y n =>
    obtain ⟨-, rfl⟩ | ⟨-, -, rfl⟩ := execDrw_cases x y n s t h
    · exact hadvance
    · exact hpc.trans (by omega)
  | ldB x =>
    obtain ⟨-, rfl⟩ | ⟨-, rfl⟩ := execLdB_cases x s t h
    · exact hadvance
    · exact hpc.trans (by omega)
  | ldMemVx x =>
    obtain ⟨-, rfl⟩ | ⟨-, rfl⟩ := execLdMemVx_cases x s t h
    · exact hadvance
    · exact hpc.trans (by omega)
  | ldVxMem x =>
    obtain ⟨-, rfl⟩ | ⟨-, rfl⟩ := execLdVxMem_cases x s t h
    · exact hadvance
    · exact hpc.trans (by omega)
  | ldVxK x =>
    obtain ⟨-, rfl⟩ | ⟨_, -, rfl⟩ := execLdVxK_cases x s t h
    · exact hpc.trans (by omega)
    · exact hadvance
  -- Every other meaning advances.
  | _ => cases h; exact hadvance

/-- Settles O55: a step that does not fetch an instruction leaves PC and the slots; one that does starts from
PC at most 0xFFE, so a pushed return address is at most 0x1000. -/
theorem stepKeepsPcInReach : Obligations.StepKeepsPcInReach := by
  intro s t ⟨hpc, hslots⟩ h
  obtain ⟨u, heng, rfl⟩ := (step_next_iff s t).mp h
  suffices hu : PcInReach u by
    obtain ⟨hupc, huslots⟩ := hu
    exact ⟨by simpa using hupc, fun k => by simpa [State.slot] using huslots k⟩
  rcases engineStep_cases s with ⟨-, h'⟩ | ⟨-, -, h'⟩ | ⟨-, -, -, h'⟩ | ⟨-, hfetch, i, -, h'⟩
  · cases h'.symm.trans heng; exact ⟨hpc, hslots⟩
  · cases h'.symm.trans heng; exact ⟨hpc, hslots⟩
  · cases h'.symm.trans heng; exact ⟨hpc, hslots⟩
  · have hexec := h'.symm.trans heng
    refine ⟨exec_pc_le hexec hfetch hslots, fun k => ?_⟩
    obtain hk | hk := exec_slot_cases hexec k
    · rw [hk]
      exact hslots k
    · rw [hk, BitVec.toNat_add]
      simp
      omega

/-- Settles O52: the default reset state lists no byte, has the empty record, and has PC 0x200. -/
theorem resetMeetsInvariants : Obligations.ResetMeetsInvariants :=
  ⟨⟨State.reset_mem_wf, rfl, rfl⟩, by decide, by decide⟩

end Sys2Proof.Machine
end

section
/-! PROOFS. Whole-machine rules read off the writes of an instruction: the flag rule, memory, the writers of
each piece of state, the timers and the beep, and the reach of the input ports. -/

namespace Sys2Proof.Machine

/-- A completed DXYN leaves its collision in VF. -/
theorem State.drawn_flag (s : State) (x y : Nat) (rows : List Byte) :
    (s.drawn x y rows).reg 0xF = if (drawRows x y rows (s.fb, false)).2 then 1 else 0 :=
  State.setFlag_reg _ _ _

/-- An instruction that writes the flag and does not raise leaves 0 or 1 in VF, since the flag is written
last (R32, C1). -/
theorem exec_flag_cases {i : Instr} {s t : State} (hi : writesFlag i = true) (h : exec i s = .next t)
    (ht : t.status = .running) : t.reg 0xF = 0 ∨ t.reg 0xF = 1 := by
  have hflag : ∃ f : Bool, t.reg 0xF = if f then 1 else 0 := by
    cases i <;> simp only [writesFlag, reduceCtorEq] at hi
    case drw x y n =>
      obtain ⟨-, rfl⟩ | ⟨-, -, rfl⟩ := execDrw_cases x y n s t h
      · exact ⟨_, s.drawn_flag _ _ _⟩
      · cases ht
    all_goals
      cases h
      exact ⟨_, State.setFlag_reg _ _ _⟩
  obtain ⟨f, hf⟩ := hflag
  rw [hf]
  exact (ite_eq_or_eq _ _ _).symm

/-- Settles O56: VF outside an instruction's writes is kept, and a completed flag write leaves a flag. -/
theorem vfFollowsTheFlagRule : Obligations.VfFollowsTheFlagRule :=
  fun i _ _ h => ⟨fun hflag hdest => (exec_keeps h).regs 0xF (by simp [Instr.writes, hflag, hdest]),
    fun hflag _ ht => exec_flag_cases hflag h ht⟩

/-- Settles O57: the addresses an instruction stores to are its writes of memory. -/
theorem memoryChangesOnlyByStores : Obligations.MemoryChangesOnlyByStores :=
  fun _ _ _ a h ha => (exec_keeps h).mem a ha

/-- Settles O58: each clause is one field of the frame, read backwards. -/
theorem stateChangesOnlyByItsWriters : Obligations.StateChangesOnlyByItsWriters := by
  intro i s t h
  have hkeeps := exec_keeps h
  refine ⟨fun ⟨c, r, hne⟩ => ?_, fun hne => ?_, fun hne => ?_, fun hne => ?_, fun hne => ?_, hkeeps.fontPolicy⟩
    <;> by_contra hi
  · exact hne (hkeeps.pixels hi c r)
  · obtain hsp | ⟨k, hk⟩ := hne
    · exact hsp (hkeeps.sp hi)
    · exact hk (hkeeps.slots hi k)
  · exact hne (hkeeps.index hi)
  · exact hne (hkeeps.dt hi)
  · exact hne (hkeeps.st hi)

/-! Timers and the beep -/

/-- A tick touches the timers and the events only (R230). -/
theorem State.tick_keeps (s : State) : Keeps { dt := True, st := True, display := True } s s.tick := by
  constructor <;> simp [State.reg, State.slot]

/-- Settles O45: each timer is counted down, and everything else but the beep is kept. -/
theorem tickCountsDown : Obligations.TickCountsDown := by
  intro s
  refine ⟨?_, ?_, s.tick_pc, fun c r => by rw [State.tick_fb], s.tick_outputs, s.tick_keeps⟩
  · rw [State.tick_dt, countDown_toNat]
  · rw [State.tick_st, countDown_toNat]

/-- An engine step emits at most a flush (R179, R231). -/
theorem engineStep_outputs {s t : State} (h : engineStep s = .next t) :
    t.outputs = s.outputs ∨ t.outputs = .flush t.fb :: s.outputs := by
  rcases engineStep_cases s with ⟨-, h'⟩ | ⟨-, -, h'⟩ | ⟨-, -, -, h'⟩ | ⟨-, -, i, -, h'⟩
  · cases h'.symm.trans h; exact .inl rfl
  · cases h'.symm.trans h; exact .inl rfl
  · cases h'.symm.trans h; exact .inl rfl
  · have hexec := h'.symm.trans h
    by_cases hi : i = .cls ∨ ∃ x y n, i = .drw x y n
    · obtain ⟨hout, -⟩ | ⟨hout, -⟩ := exec_display_cases hi hexec
      · exact .inr hout
      · exact .inl hout
    · exact .inl (exec_outputs_of_not_display hi hexec)

/-- Settles O46: a flush is not a beep, and reset and power-on keep the list of events. -/
theorem beepExactlyAtZero : Obligations.BeepExactlyAtZero := by
  refine ⟨State.tick_outputs, fun s t h => ?_, fun _ _ => rfl, fun _ _ => rfl⟩
  obtain hout | hout := engineStep_outputs h
  · rw [hout]
  · rw [hout, List.count_cons_of_ne (by simp)]

/-- Ticks never raise DT (R41). -/
theorem State.ticks_dt_le (n : Nat) (s : State) : (State.ticks n s).dt.toNat ≤ s.dt.toNat := by
  induction n generalizing s with
  | zero => exact le_rfl
  | succ n ih =>
    calc (State.ticks n s.tick).dt.toNat
      _ ≤ s.tick.dt.toNat := ih s.tick
      _ ≤ s.dt.toNat := by rw [State.tick_dt, countDown_toNat]; omega

/-- Settles O47: ticks never raise DT, a halted or faulting step keeps it, and FX15 alone writes it. -/
theorem delayTimerGrowsOnlyByFx15 : Obligations.DelayTimerGrowsOnlyByFx15 := by
  intro s t h hgrows
  obtain ⟨u, heng, rfl⟩ := (step_next_iff s t).mp h
  have hu : s.dt.toNat < u.dt.toNat := by
    rw [State.settle, State.runTicks_eq_ticks] at hgrows
    exact hgrows.trans_le (State.ticks_dt_le _ u)
  rcases engineStep_cases s with ⟨-, h'⟩ | ⟨-, -, h'⟩ | ⟨-, -, -, h'⟩ | ⟨hrun, hpc, i, hi, h'⟩
  · cases h'.symm.trans heng; exact absurd hu (lt_irrefl _)
  · cases h'.symm.trans heng; exact absurd hu (lt_irrefl _)
  · cases h'.symm.trans heng; exact absurd hu (lt_irrefl _)
  · have hwrites : ∃ x, i = .ldDtVx x := by
      by_contra hne
      rw [(exec_keeps (h'.symm.trans heng)).dt hne] at hu
      exact lt_irrefl _ hu
    obtain ⟨x, rfl⟩ := hwrites
    exact ⟨x, hrun, hpc, hi⟩

/-! Presenting an input -/

/-- Presenting an input loses nothing of the state. -/
theorem State.present_injective {s t : State} {inp : Inputs} (h : s.present inp = t.present inp) : s = t := by
  cases s
  cases t
  simpa [State.present] using h

/-- A range check reads no input. -/
theorem State.checked_present (s t : State) (inp : Inputs) (w : Option Word) (base n : Nat) (k : AccessKind) :
    (s.present inp).checked w base n k (t.present inp) = (s.checked w base n k t).present inp := by
  unfold State.checked
  split <;> rfl

/-- An instruction that takes no sample answers the same with any input presented (R12). -/
theorem exec_present {i : Instr} {s t : State} (inp : Inputs)
    (hkey : ∀ x, i ≠ .skp x ∧ i ≠ .sknp x ∧ i ≠ .ldVxK x) (hrand : ∀ x nn, i ≠ .rnd x nn)
    (h : exec i s = .next t) : exec i (s.present inp) = .next (t.present inp) := by
  cases i with
  | skp x => exact absurd rfl (hkey x).1
  | sknp x => exact absurd rfl (hkey x).2.1
  | ldVxK x => exact absurd rfl (hkey x).2.2
  | rnd x nn => exact absurd rfl (hrand x nn)
  | ret =>
    obtain ⟨hsp, rfl⟩ | ⟨hsp, rfl⟩ := execRet_cases s t h
    · exact congrArg _ (dif_pos hsp)
    · exact congrArg _ (dif_neg (by simp [hsp]))
  | call nnn =>
    obtain ⟨hsp, rfl⟩ | ⟨hsp, rfl⟩ := execCall_cases nnn s t h
    · exact congrArg _ (dif_pos hsp)
    · exact congrArg _ (dif_neg (by simp [hsp]))
  | drw x y n =>
    cases h
    refine congrArg Host.Outcome.next ?_
    by_cases hn : n = 0
    · simp only [if_pos hn]; rfl
    · simp only [if_neg hn]; exact s.checked_present (s.drawn _ _ _) inp _ _ _ _
  | ldB x => cases h; exact congrArg Host.Outcome.next (s.checked_present (s.setMem _).advance inp _ _ _ _)
  | ldMemVx x => cases h; exact congrArg Host.Outcome.next (s.checked_present (s.setMem _).advance inp _ _ _ _)
  | ldVxMem x => cases h; exact congrArg Host.Outcome.next (s.checked_present (s.setRegs _).advance inp _ _ _ _)
  | _ => cases h; rfl

/-- Settles O60: the answer without the input determines the answer with any. -/
theorem inputsReachOnlyTheirInstructions : Obligations.InputsReachOnlyTheirInstructions := by
  intro i s t inp inp' hkey hrand h
  obtain ⟨u, hu⟩ := exec_next i s
  have hut : u.present inp = t.present inp :=
    Host.Outcome.next.inj ((exec_present inp hkey hrand hu).symm.trans h)
  rw [exec_present inp' hkey hrand hu, State.present_injective hut]

end Sys2Proof.Machine
end

section
/-! PROOFS. Reset, power-on and load (70_reset_and_hazards.md R250 to R252, 20_memory.md R66 to R69). -/

namespace Sys2Proof.Machine

/-- Above the font a byte nothing has written reads as the fill (R67). -/
theorem initialByte_of_ge {a : Nat} (h : 80 ≤ a) : Config.initialByte a = Config.memFill :=
  List.getD_eq_default _ _ h

/-- Settles O48: each default, the 80 font bytes evaluated, and the fill above them. -/
theorem resetHasDefaultValues : Obligations.ResetHasDefaultValues := by
  refine ⟨by decide, rfl, rfl, rfl, by decide, rfl, rfl, fun c r => Display.clear_pixel c r, rfl, rfl, rfl, rfl,
    by decide, fun a ha => initialByte_of_ge ha⟩

/-- A reset keeps what its RESET_STATE and the fault state do not name (R251). -/
theorem State.applyReset_keeps (s : State) (r : ResetState) :
    Keeps { regs := fun _ => True, index := True, stack := True, dt := True, st := True, status := True }
      s (s.applyReset r) := by
  constructor <;> simp [State.applyReset]

/-- Settles O49: every named field is the RESET_STATE's, and the rest is kept. -/
theorem applyResetSetsRegisters : Obligations.ApplyResetSetsRegisters :=
  fun s r => ⟨fun _ => rfl, rfl, rfl, rfl, fun _ => rfl, rfl, rfl, rfl, rfl, rfl, s.applyReset_keeps r⟩

/-- The bytes memory is built of: the font, then the fill up to the end of memory (R250). -/
theorem constructedMemory_length (p : PowerOnParams) :
    (p.fontTable.toList ++ List.replicate (Config.memSize - 80) p.memFill).length = Config.memSize := by
  rw [List.length_append, Vector.length_toList, List.length_replicate]
  decide

/-- A byte of the constructed memory is the byte of that list. -/
theorem constructedMemory_read (p : PowerOnParams) {a : Nat} (ha : a < Config.memSize) :
    (constructedMemory p).read a = (p.fontTable.toList ++ List.replicate (Config.memSize - 80) p.memFill)[a]'
      (by rw [constructedMemory_length]; exact ha) := by
  have h := Memory.read_writeBytes_mem [] 0 a (p.fontTable.toList ++ List.replicate (Config.memSize - 80) p.memFill)
    (by rw [constructedMemory_length]; exact ha) (by rw [constructedMemory_length, Nat.zero_add]) rfl
  rwa [Nat.zero_add] at h

theorem constructedMemory_read_font (p : PowerOnParams) {a : Nat} (ha : a < 80) :
    (constructedMemory p).read a = p.fontTable[a] := by
  rw [constructedMemory_read p (ha.trans (by decide)), List.getElem_append_left (by simpa using ha),
    Vector.getElem_toList]

theorem constructedMemory_read_fill (p : PowerOnParams) {a : Nat} (hlow : 80 ≤ a) (ha : a < 0x1000) :
    (constructedMemory p).read a = p.memFill := by
  rw [constructedMemory_read p ha, List.getElem_append_right (by simpa using hlow), List.getElem_replicate]

/-- With the default font and fill, memory reads as in the reset state, which lists no byte (R55, R66, R67). -/
theorem constructedMemory_default_read {a : Nat} (ha : a < 0x1000) :
    (constructedMemory PowerOnParams.default).read a = State.reset.mem.read a := by
  by_cases hfont : a < 80
  · rw [constructedMemory_read_font _ hfont]
    exact (List.getD_eq_getElem Config.fontTable Config.memFill hfont).symm
  · rw [constructedMemory_read_fill _ (Nat.not_lt.mp hfont) ha]
    exact (initialByte_of_ge (Nat.not_lt.mp hfont)).symm

@[simp] theorem State.powerOn_mem (s : State) (p : PowerOnParams) : (s.powerOn p).mem = constructedMemory p := rfl

/-- Settles O50: memory is the constructed one, the display clear, and every other field the RESET_STATE's. -/
theorem powerOnBuildsMemory : Obligations.PowerOnBuildsMemory := by
  refine ⟨fun s p => ?_, fun s a ha => ?_⟩
  · rw [State.powerOn_mem]
    exact ⟨fun _ ha => constructedMemory_read_font p ha, fun _ hlow ha => constructedMemory_read_fill p hlow ha,
      fun c r => Display.clear_pixel c r, fun _ => rfl, rfl, rfl, rfl, fun _ => rfl, rfl, rfl, rfl, rfl, rfl, rfl,
      constructedMemory_wf p, rfl⟩
  · rw [State.powerOn_mem]
    exact constructedMemory_default_read ha

/-- An image that is too long is rejected (R69, D23). -/
theorem load_eq_none {s : State} {image : List Byte} (hlen : 3584 < image.length) : s.load image = none := by
  by_contra hsome
  obtain ⟨t, ht⟩ := Option.ne_none_iff_exists'.mp hsome
  have := ((load_eq_some_iff s t image).mp ht).1
  omega

/-- Settles O51: an image that fits is stored in its range, and a rejected load is no change. -/
theorem loadCopiesImage : Obligations.LoadCopiesImage := by
  intro s image hw
  refine ⟨fun hlen => ⟨_, (load_eq_some_iff s _ image).mpr ⟨hlen, rfl⟩, rfl, fun k hk => ?_,
    s.storeBytes_keeps 0x200 image⟩, fun hlen => ?_⟩
  · exact Memory.read_writeBytes_mem _ _ _ _ hk (by simp only [Config.memSize]; omega) hw
  · have hnone := load_eq_none (s := s) hlen
    exact ⟨hnone, by simp [State.handle, hnone]⟩

end Sys2Proof.Machine
end

section
/-! PROOFS. Control flow (40_clear_and_return.md R121, 41_jumps.md R131 and R132, 42_skips.md R140 to R147):
the stack, BNNN and the six conditional skips. -/

namespace Sys2Proof.Machine

/-- A meaning that is an exception raises it. -/
theorem raises_of_exec {i : Instr} {s : State} {c : FaultCause} {f : FaultInfo} (h : exec i s = .next (s.raise c f)) :
    Raises i s c f :=
  ⟨_, h, rfl, rfl, rfl, rfl, s.raise_keeps c f⟩

/-! The stack -/

/-- RET with a return address on the stack pops it into PC. -/
theorem exec_ret_of_pos {s : State} (h : 0 < s.sp.val) : exec .ret s = .next ((s.drop h).setPc (s.top h)) :=
  congrArg Host.Outcome.next (dif_pos h)

theorem exec_ret_of_empty {s : State} (h : s.sp = 0) : exec .ret s = .next (s.raiseUnderflow 0x00EE) :=
  congrArg Host.Outcome.next (dif_neg (by simp [h]))

/-- CALL with room on the stack pushes PC + 2 and jumps. -/
theorem exec_call_of_lt {s : State} (nnn : BitVec 12) (h : s.sp.val < 16) :
    exec (.call nnn) s = .next ((s.push h (s.pc + 2)).setPc (addr16 nnn)) :=
  congrArg Host.Outcome.next (dif_pos h)

theorem exec_call_of_full {s : State} (nnn : BitVec 12) (h : s.sp = 16) :
    exec (.call nnn) s = .next (s.raiseOverflow (encode (.call nnn))) :=
  congrArg Host.Outcome.next (dif_neg (by simp [h]))

/-- Settles O12: with SP = k + 1 the popped slot is S[k]. -/
theorem retPopsOrUnderflows : Obligations.RetPopsOrUnderflows := by
  refine fun s => ⟨fun k hk => ?_, fun hsp => raises_of_exec (exec_ret_of_empty hsp)⟩
  have hpos : 0 < s.sp.val := by omega
  refine ⟨_, exec_ret_of_pos hpos, s.drop_setPc_keeps hpos _, ?_, ?_, fun _ => rfl⟩
  · rw [State.setPc_pc, State.top_eq_slot]
    exact congrArg s.slot (Fin.ext (by simp [hk]))
  · simp [hk]

/-- Settles O14: with SP = k below 16 the pushed slot is S[k]. -/
theorem callPushesOrOverflows : Obligations.CallPushesOrOverflows := by
  refine fun s nnn => ⟨fun k hk => ?_, fun hsp => raises_of_exec (exec_call_of_full nnn hsp)⟩
  have hlt : s.sp.val < 16 := by omega
  refine ⟨_, exec_call_of_lt nnn hlt, s.push_setPc_keeps hlt _ _, ?_, fun j hj => ?_, ?_, addr16_toNat nnn⟩
  · rw [State.setPc_slot, State.push_slot, if_pos hk.symm, pc_add_two]
  · rw [State.setPc_slot, State.push_slot, if_neg (fun h => hj (Fin.ext (h.trans hk)))]
  · simp [hk]

/-- Settles O16: the return pops the slot the call pushed. -/
theorem returnFollowsCall : Obligations.ReturnFollowsCall := by
  intro s t u nnn hfull hcall hsp hslots
  obtain ⟨hlt, rfl⟩ | ⟨h, -⟩ := execCall_cases nnn s t hcall
  · have husp : u.sp.val = s.sp.val + 1 := by rw [hsp]; rfl
    have hpos : 0 < u.sp.val := by omega
    refine ⟨_, exec_ret_of_pos hpos, ?_, Fin.ext (by simp [husp])⟩
    rw [State.setPc_pc, State.top_eq_slot, hslots, State.setPc_slot, State.push_slot, if_pos (by simp [husp]),
      pc_add_two]
  · exact absurd h hfull

/-- Settles O15: NNN + V0 is below 65536, so the 16-bit sum does not wrap. -/
theorem jpV0AddsV0 : Obligations.JpV0AddsV0 := by
  refine fun s nnn => ⟨s.setPc (addr16 nnn + (s.reg 0).setWidth 16), rfl, s.setPc_keeps _, ?_⟩
  have := nnn.isLt
  have := (s.reg 0).isLt
  simp only [State.setPc_pc, BitVec.toNat_add, addr16_toNat, BitVec.toNat_setWidth]
  omega

/-! Skips -/

/-- A meaning that is a conditional skip moves PC by 4 or 2 and changes nothing else (R140). -/
theorem completes_of_skipIf {i : Instr} {s : State} {c : Bool} (h : exec i s = .next (s.skipIf c)) :
    Completes i s {} fun t => t.pc = pcPlus s (if c then 4 else 2) := by
  refine ⟨s.skipIf c, h, s.skipIf_keeps c, (s.skipIf_pc c).trans ?_⟩
  rw [pc_add_two, pc_add_four]
  exact (apply_ite (pcPlus s) _ _ _).symm

/-! The skip each instruction is -/

theorem exec_seImm (x : RegIdx) (nn : Byte) (s : State) :
    exec (.seImm x nn) s = .next (s.skipIf (s.reg x == nn)) := rfl

theorem exec_sneImm (x : RegIdx) (nn : Byte) (s : State) :
    exec (.sneImm x nn) s = .next (s.skipIf (s.reg x != nn)) := rfl

theorem exec_seReg (x y : RegIdx) (s : State) :
    exec (.seReg x y) s = .next (s.skipIf (s.reg x == s.reg y)) := rfl

theorem exec_sneReg (x y : RegIdx) (s : State) :
    exec (.sneReg x y) s = .next (s.skipIf (s.reg x != s.reg y)) := rfl

theorem exec_skp (x : RegIdx) (s : State) :
    exec (.skp x) s = .next (s.skipIf (keyMatches s.now.key (s.reg x))) := rfl

theorem exec_sknp (x : RegIdx) (s : State) :
    exec (.sknp x) s = .next (s.skipIf (!keyMatches s.now.key (s.reg x))) := rfl

/-- Settles O17: the skips on equality and inequality with NN. -/
theorem immediateSkips : Obligations.ImmediateSkips := by
  refine fun s x nn => ⟨(completes_of_skipIf (exec_seImm x nn s)).mono fun t hpc => ?_,
    (completes_of_skipIf (exec_sneImm x nn s)).mono fun t hpc => ?_⟩
  · simpa only [beq_iff_eq] using hpc
  · simpa only [bne_iff_ne, ite_not] using hpc

/-- Settles O18: the skips on equality and inequality of two registers, which are equal when X = Y. -/
theorem registerSkips : Obligations.RegisterSkips := by
  refine fun s x y => ⟨(completes_of_skipIf (exec_seReg x y s)).mono fun t hpc => ?_,
    (completes_of_skipIf (exec_sneReg x y s)).mono fun t hpc => ?_⟩
  · simp only [beq_iff_eq] at hpc
    exact ⟨hpc, fun hxy => hpc.trans (by rw [hxy, if_pos rfl])⟩
  · simp only [bne_iff_ne, ite_not] at hpc
    exact ⟨hpc, fun hxy => hpc.trans (by rw [hxy, if_pos rfl])⟩

/-- A register above 0xF matches no key (R146). -/
theorem keyMatches_of_high (k : Option Key) {x : Byte} (h : 0xF < x.toNat) : keyMatches k x = false := by
  by_contra hmatch
  obtain ⟨j, -, hj⟩ := (keyMatches_iff k x).mp (Bool.eq_true_of_not_eq_false hmatch)
  omega

/-- Settles O19: both skips are on `keyMatches`, SKNP's negated. -/
theorem keySkips : Obligations.KeySkips := by
  refine fun s x => ⟨(completes_of_skipIf (exec_skp x s)).mono fun t hpc => ?_,
    (completes_of_skipIf (exec_sknp x s)).mono fun t hpc => ?_⟩
  all_goals
    refine ⟨fun hkey => ?_, fun hkey => ?_, fun hhigh => ?_⟩
    · simpa [(keyMatches_iff _ _).mpr hkey] using hpc
    · simpa [Bool.eq_false_iff.mpr (mt (keyMatches_iff _ _).mp hkey)] using hpc
    · simpa [keyMatches_of_high _ hhigh] using hpc

end Sys2Proof.Machine
end

section
/-! PROOFS. Shifts, the random draw and the index register (43_register_alu.md R160 and R162, 44_random.md R170,
46_timer_index_memory.md R190 and R194 to R196). -/

namespace Sys2Proof.Machine

/-! Shifts -/

/-- The bit a right shift drops is the remainder modulo 2 (R160). -/
theorem lsbFlag_toNat (x : Byte) : (if lsbFlag x then 1 else 0) = x.toNat % 2 := by
  have := Nat.mod_two_eq_zero_or_one x.toNat
  simp only [lsbFlag, BitVec.getLsbD, Nat.testBit_zero]
  split <;> simp_all

/-- The bit a left shift drops is the quotient by 128 (R162). -/
theorem msbFlag_toNat (x : Byte) : (if msbFlag x then 1 else 0) = x.toNat / 128 := by
  have := x.isLt
  simp only [msbFlag, BitVec.getLsbD, Nat.testBit_eq_decide_div_mod_eq]
  split <;> simp_all <;> omega

theorem exec_shr (x y : RegIdx) (s : State) :
    exec (.shr x y) s = .next (s.resultFlag x (s.reg x >>> 1) (lsbFlag (s.reg x))) := rfl

theorem exec_shl (x y : RegIdx) (s : State) :
    exec (.shl x y) s = .next (s.resultFlag x (s.reg x <<< 1) (msbFlag (s.reg x))) := rfl

/-- Settles O26: the flagged right shift; its row is 8XY6 with any Y. -/
theorem shrDropsBitZero : Obligations.ShrDropsBitZero := by
  refine ⟨encodedAs_row (.shr 0 0), fun s x y => (completes_of_resultFlag (exec_shr x y s)).mono
    fun t ⟨hreg, hflag, hpc⟩ => ⟨fun hx => ?_, hflag.trans (lsbFlag_toNat _), hpc⟩⟩
  rw [hreg hx, BitVec.toNat_ushiftRight, Nat.shiftRight_eq_div_pow, pow_one]

/-- Settles O28: the flagged left shift; its row is 8XYE with any Y. -/
theorem shlDropsBitSeven : Obligations.ShlDropsBitSeven := by
  refine ⟨encodedAs_row (.shl 0 0), fun s x y => (completes_of_resultFlag (exec_shl x y s)).mono
    fun t ⟨hreg, hflag, hpc⟩ => ⟨fun hx => ?_, hflag.trans (msbFlag_toNat _), hpc⟩⟩
  rw [hreg hx, BitVec.toNat_shiftLeft, Nat.shiftLeft_eq, pow_one, Nat.mul_comm]

/-! The random draw -/

theorem exec_rnd (x : RegIdx) (nn : Byte) (s : State) :
    exec (.rnd x nn) s = .next (s.result x (s.now.rand &&& nn)) := rfl

/-- Settles O29: CXNN is the register result of the masked sample, and a presented byte is the sample. -/
theorem rndMasksTheDraw : Obligations.RndMasksTheDraw :=
  ⟨encodedAs_row (.rnd 0 0), fun s x nn => completes_of_result (exec_rnd x nn s),
    fun s _ _ _ => congrArg Inputs.rand (s.now_present _)⟩

/-! The index register -/

/-- A meaning that writes I and advances changes nothing else (R38). -/
theorem completes_of_setI {i : Instr} {s : State} {a : Word} (h : exec i s = .next (s.setI a).advance) :
    Completes i s { index := True } fun t => t.i = a ∧ t.pc = pcPlus s 2 :=
  ⟨_, h, s.setI_advance_keeps a, rfl, pc_add_two s⟩

theorem exec_ldI (nnn : BitVec 12) (s : State) : exec (.ldI nnn) s = .next (s.setI (addr16 nnn)).advance := rfl

theorem exec_addI (x : RegIdx) (s : State) :
    exec (.addI x) s =
      .next ((s.setI (s.i + (s.reg x).setWidth 16)).setFlag (indexFlag s.i (s.reg x))).advance := rfl

theorem exec_ldF (x : RegIdx) (s : State) :
    exec (.ldF x) s = .next (s.setI (glyphAddr s.fontPolicy s.clock (s.reg x))).advance := rfl

/-- Settles O33: I takes NNN, zero-extended. -/
theorem ldISetsIndex : Obligations.LdISetsIndex :=
  fun s nnn => (completes_of_setI (exec_ldI nnn s)).mono fun t ⟨hi, hpc⟩ => ⟨by rw [hi, addr16_toNat], hpc⟩

/-- Settles O37: the 16-bit sum in I, then the flag of the unwrapped sum in VF. -/
theorem addISetsIndexFlag : Obligations.AddISetsIndexFlag := by
  refine fun s x => ⟨_, exec_addI x s, s.setI_setFlag_advance_keeps _ _, ?_, ?_, pc_add_two s⟩
  · have := (s.reg x).isLt
    simp only [State.advance_i, State.setFlag_i, State.setI_i, BitVec.toNat_add, BitVec.toNat_setWidth]
    omega
  · rw [State.advance_reg, State.setFlag_reg, if_pos rfl, indexFlag]
    split <;> simp_all

/-- Settles O38: I takes the glyph address under the block's policy, clause by clause. -/
theorem ldFPointsAtGlyph : Obligations.LdFPointsAtGlyph := by
  refine fun s x => (completes_of_setI (exec_ldF x s)).mono fun t ⟨hi, hpc⟩ =>
    ⟨fun hdigit => ?_, fun hpol => ?_, fun hpol => ?_, fun hpol hhigh => ?_, hpc⟩ <;> rw [hi]
  · exact glyphAddr_digit_toNat _ _ _ hdigit
  · rw [hpol, glyphAddr_linear_toNat]
  · rw [hpol, glyphAddr_lowNibble_toNat]
  · rw [hpol, glyphAddr_any _ _ hhigh]

end Sys2Proof.Machine
end

section
/-! PROOFS. Memory blocks (46_timer_index_memory.md R197 to R199, 20_memory.md R65, R75): FX33, FX55 and FX65
within memory and out of range, and the fetch of what FX55 stored. -/

namespace Sys2Proof.Machine

/-- A checked access that stays within memory goes through (R65). -/
theorem State.checked_of_inRange (s t : State) (w : Option Word) (k : AccessKind) {base n : Nat}
    (h : base + n - 1 ≤ 0xFFF) : s.checked w base n k t = t :=
  if_pos ((InRange_iff _ _).mpr h)

/-- A checked access that leaves memory raises in the state it started from (R65). -/
theorem State.checked_of_outOfRange (s t : State) (w : Option Word) (k : AccessKind) {base n : Nat}
    (h : 0xFFF < base + n - 1) : s.checked w base n k t = s.raiseOutOfRange w base k :=
  if_neg (by simp only [InRange_iff]; omega)

theorem exec_ldB (x : RegIdx) (s : State) :
    exec (.ldB x) s = .next (s.checked (some (encode (.ldB x))) s.i.toNat 3 .write
      (s.setMem (s.mem.writeBytes s.i.toNat (bcdDigits (s.reg x)))).advance) := rfl

theorem exec_ldMemVx (x : RegIdx) (s : State) :
    exec (.ldMemVx x) s = .next (s.checked (some (encode (.ldMemVx x))) s.i.toNat (x.val + 1) .write
      (s.setMem (s.mem.writeBytes s.i.toNat (s.regSlice x))).advance) := rfl

theorem exec_ldVxMem (x : RegIdx) (s : State) :
    exec (.ldVxMem x) s = .next (s.checked (some (encode (.ldVxMem x))) s.i.toNat (x.val + 1) .read
      (s.setRegs (s.loadedRegs x s.i.toNat)).advance) := rfl

/-- After a store within memory the k-th stored address reads the k-th byte, and PC has advanced. -/
theorem completes_of_store {i : Instr} {s : State} {bs : List Byte} (hw : s.mem.wf = true)
    (hin : s.i.toNat + bs.length ≤ Config.memSize)
    (h : exec i s = .next (s.setMem (s.mem.writeBytes s.i.toNat bs)).advance) :
    Completes i s { mem := fun a => s.i.toNat ≤ a ∧ a < s.i.toNat + bs.length } fun t =>
      (∀ k (hk : k < bs.length), t.mem.read (s.i.toNat + k) = bs[k]) ∧ t.pc = pcPlus s 2 :=
  ⟨_, h, s.storeBytes_advance_keeps _ bs, fun k hk => Memory.read_writeBytes_mem s.mem s.i.toNat k bs hk hin hw,
    pc_add_two s⟩

/-- The digits FX33 stores, as numbers (R197). -/
theorem bcdDigits_toNat (x : Byte) :
    (bcdDigits x)[0].toNat = x.toNat / 100 ∧ (bcdDigits x)[1].toNat = x.toNat / 10 % 10 ∧
      (bcdDigits x)[2].toNat = x.toNat % 10 := by
  have := x.isLt
  simp only [bcdDigits, u8, List.getElem_cons_zero, List.getElem_cons_succ, BitVec.toNat_ofNat]
  omega

/-- Settles O39: the store of the three digits, or the exception of its range check. -/
theorem ldBStoresDigits : Obligations.LdBStoresDigits := by
  refine ⟨encodedAs_row (.ldB 0), fun s x hw => ⟨fun hin => ?_, fun hout => raises_of_exec ?_⟩⟩
  · obtain ⟨hundreds, htens, hones⟩ := bcdDigits_toNat (s.reg x)
    have hexec := exec_ldB x s
    rw [State.checked_of_inRange _ _ _ _ (by omega)] at hexec
    refine (completes_of_store hw (by simp only [bcdDigits_length, Config.memSize]; omega) hexec).mono
      fun t ⟨hread, hpc⟩ => ?_
    exact ⟨(congrArg BitVec.toNat (hread 0 (by simp))).trans hundreds,
      (congrArg BitVec.toNat (hread 1 (by simp))).trans htens,
      (congrArg BitVec.toNat (hread 2 (by simp))).trans hones, hpc⟩
  · rw [exec_ldB, State.checked_of_outOfRange _ _ _ _ (by omega)]
    rfl

/-- FX55 within memory stores V[k] at I + k for k up to X. -/
theorem completes_ldMemVx {s : State} {x : RegIdx} (hw : s.mem.wf = true) (hin : s.i.toNat + x.val ≤ 0xFFF) :
    Completes (.ldMemVx x) s { mem := storesTo (.ldMemVx x) s } fun t =>
      (∀ k : RegIdx, k ≤ x → t.mem.read (s.i.toNat + k.val) = s.reg k) ∧ t.pc = pcPlus s 2 := by
  have hexec := exec_ldMemVx x s
  rw [State.checked_of_inRange _ _ _ _ (by omega)] at hexec
  have hstore := completes_of_store hw (by simp only [State.regSlice_length, Config.memSize]; omega) hexec
  simp only [State.regSlice_length] at hstore
  exact hstore.mono fun t ⟨hread, hpc⟩ =>
    ⟨fun k hk => (hread k.val (Nat.lt_succ_of_le hk)).trans (s.regSlice_getElem x k.val _), hpc⟩

/-- Settles O40: the store of the register slice, or the exception of its range check. -/
theorem ldMemVxStoresRegisters : Obligations.LdMemVxStoresRegisters := by
  refine fun s x hw => ⟨completes_ldMemVx hw, fun hout => raises_of_exec ?_⟩
  rw [exec_ldMemVx, State.checked_of_outOfRange _ _ _ _ (by omega)]
  rfl

/-- Settles O41: the load of the register slice, or the exception of its range check. -/
theorem ldVxMemLoadsRegisters : Obligations.LdVxMemLoadsRegisters := by
  refine fun s x => ⟨fun hin => ?_, fun hout => raises_of_exec ?_⟩
  · have hexec := exec_ldVxMem x s
    rw [State.checked_of_inRange _ _ _ _ (by omega)] at hexec
    refine ⟨_, hexec, s.loadedRegs_advance_keeps x _, fun k hk => ?_, pc_add_two s⟩
    rw [State.advance_reg, State.setRegs_loadedRegs_reg, if_pos (Fin.le_def.mp hk)]
  · rw [exec_ldVxMem, State.checked_of_outOfRange _ _ _ _ (by omega)]
    rfl

/-- Settles O42: both bytes of the word at PC are bytes the store wrote. -/
theorem storedCodeIsFetched : Obligations.StoredCodeIsFetched := by
  intro s t x k hw hin hexec hk hpc
  obtain ⟨u, hu, -, hread, -⟩ := completes_ldMemVx hw hin
  obtain rfl : u = t := Host.Outcome.next.inj (hu.symm.trans hexec)
  have hsucc : (k + 1).val = k.val + 1 := Fin.val_add_one_of_lt (hk.trans_le (Fin.le_last x))
  have hlast : k + 1 ≤ x := by rw [Fin.le_def, hsucc]; exact hk
  rw [State.fetchWord, hpc, Nat.add_assoc, ← hsucc, hread k hk.le, hread (k + 1) hlast]

end Sys2Proof.Machine
end

section
/-! PROOFS. Wait for key (47_wait_for_key.md R210, R211). -/

namespace Sys2Proof.Machine

/-- FX0A with no key presented is the identity (R210). -/
theorem exec_ldVxK_of_none {s : State} (x : RegIdx) (h : s.now.key = none) : exec (.ldVxK x) s = .next s := by
  obtain ⟨t, ht⟩ := exec_next (.ldVxK x) s
  obtain ⟨-, rfl⟩ | ⟨k, hk, -⟩ := execLdVxK_cases x s t ht
  · exact ht
  · simp [h] at hk

/-- FX0A with a key presented is a register result (R210). -/
theorem exec_ldVxK_of_some {s : State} (x : RegIdx) {k : Key} (h : s.now.key = some k) :
    exec (.ldVxK x) s = .next (s.result x (keyByte k)) := by
  obtain ⟨t, ht⟩ := exec_next (.ldVxK x) s
  obtain ⟨hn, -⟩ | ⟨j, hj, rfl⟩ := execLdVxK_cases x s t ht
  · simp [h] at hn
  · rw [ht, Option.some.inj (h.symm.trans hj)]

/-- Settles O43: the hold and the register result of the key. -/
theorem ldVxKWaitsForKey : Obligations.LdVxKWaitsForKey :=
  ⟨encodedAs_row (.ldVxK 0), fun _ x => ⟨exec_ldVxK_of_none x, fun k hk =>
    (completes_of_result (exec_ldVxK_of_some x hk)).mono fun _ ⟨hreg, hpc⟩ => ⟨by rw [hreg, keyByte_toNat], hpc⟩⟩⟩

/-- The words of FX0A's row are those that decode to it (R211). -/
theorem isWaitForKey_iff (w : Word) : isWaitForKey w = true ↔ ∃ x, decode w = some (.ldVxK x) :=
  ⟨fun h => ⟨_, decode_of_matches_row h⟩, fun ⟨x, hx⟩ => rowOf_matches_of_decode (i := .ldVxK x) hx⟩

/-- A running block cannot proceed exactly when it would hold (R211). -/
theorem canProceed_eq_false_iff_of_running {s : State} (hrun : s.status = .running) :
    s.canProceed = false ↔
      s.pc.toNat ≤ 0xFFE ∧ (∃ x, decode s.fetchWord = some (.ldVxK x)) ∧ s.now.key = none := by
  have hin : InRange s.pc.toNat 2 = true ↔ s.pc.toNat ≤ 0xFFE := by
    rw [InRange_iff]
    omega
  rw [← isWaitForKey_iff, ← hin]
  simp [State.canProceed, hrun, State.sampleKey, and_assoc, -InRange_iff]

/-- Settles O44: by STATUS; a running block that cannot proceed is at an FX0A without a key, which holds. -/
theorem cannotProceedMeansHold : Obligations.CannotProceedMeansHold := by
  intro s
  cases hs : s.status with
  | halted => exact ⟨by simp [State.canProceed, hs], nofun⟩
  | running =>
    rw [canProceed_eq_false_iff_of_running hs]
    refine ⟨by simp, fun _ ⟨hpc, ⟨x, hx⟩, hkey⟩ => ?_⟩
    rw [engineStep_of_decode hs hpc hx, exec_ldVxK_of_none x hkey]

end Sys2Proof.Machine
end

section
/-! PROOFS. Sprites (45_draw.md R175 to R180): the draw, bit after bit and row after row, is one parallel XOR
of the whole sprite, because no two of its bits land on the same pixel. -/

namespace Sys2Proof.Machine

/-- From `d` to `e` exactly the pixels of `P` are flipped, and a collision is recorded exactly when one of them
was lit (R176, R177). -/
def Draws (P : Fin 64 → Fin 32 → Prop) (d e : Drawing) : Prop :=
  (∀ c r, e.1.pixel c r = true ↔ ¬ (d.1.pixel c r = true ↔ P c r)) ∧
    (e.2 = true ↔ d.2 = true ∨ ∃ c r, d.1.pixel c r = true ∧ P c r)

/-- Drawing no pixel changes nothing. -/
theorem Draws.refl {P : Fin 64 → Fin 32 → Prop} (hP : ∀ c r, ¬ P c r) (d : Drawing) : Draws P d d := by
  constructor <;> simp [hP]

/-- Two draws on disjoint pixels are one draw of both: the second finds its pixels as the first found them. -/
theorem Draws.trans {P Q R : Fin 64 → Fin 32 → Prop} {d e f : Drawing} (hde : Draws P d e) (hef : Draws Q e f)
    (hdisj : ∀ c r, P c r → ¬ Q c r) (hR : ∀ c r, R c r ↔ P c r ∨ Q c r) : Draws R d f := by
  obtain ⟨hpix, hcol⟩ := hde
  obtain ⟨hpix', hcol'⟩ := hef
  have hsame : ∀ c r, e.1.pixel c r = true ∧ Q c r ↔ d.1.pixel c r = true ∧ Q c r := by
    refine fun c r => and_congr_left fun hq => ?_
    have hp : ¬ P c r := fun hp => hdisj c r hp hq
    simp [hpix c r, hp]
  constructor
  · intro c r
    rw [hpix' c r, hpix c r, hR c r]
    by_cases hp : P c r
    · simp [hp, hdisj c r hp]
    · simp [hp]
  · simp only [hcol', hcol, hsame, hR, and_or_left, exists_or, or_assoc]

/-- The pixels of the first `n` bits of one sprite row. -/
def rowBits (x y : Nat) (b : Byte) (n : Nat) (c : Fin 64) (r : Fin 32) : Prop :=
  ∃ bit < n, b.getLsbD (7 - bit) = true ∧ (x + bit) % 64 = c.val ∧ y % 32 = r.val

/-- One bit draws its pixel. -/
theorem drawBit_draws (x y : Nat) (b : Byte) (k : Nat) (d : Drawing) :
    Draws (fun c r => b.getLsbD (7 - k) = true ∧ (x + k) % 64 = c.val ∧ y % 32 = r.val) d (drawBit x y b d k) := by
  obtain ⟨hpix, hcol⟩ := drawBit_spec x y b d k
  have hc : ∀ c, c = Fin.ofNat 64 (x + k) ↔ (x + k) % 64 = c.val := fun c => by simp [Fin.ext_iff, eq_comm]
  have hr : ∀ r, r = Fin.ofNat 32 y ↔ y % 32 = r.val := fun r => by simp [Fin.ext_iff, eq_comm]
  constructor
  · intro c r
    rw [hpix, Bool.xor_iff_ne, ne_eq, Bool.eq_iff_iff]
    simp only [Bool.and_eq_true, decide_eq_true_iff, hc, hr, and_assoc]
  · simp only [hcol, ← hc, ← hr, Bool.or_eq_true, Bool.and_eq_true]
    refine or_congr_right ⟨fun ⟨hb, hlit⟩ => ⟨_, _, hlit, hb, rfl, rfl⟩, ?_⟩
    rintro ⟨c, r, hlit, hb, rfl, rfl⟩
    exact ⟨hb, hlit⟩

/-- The first `n` bits of a row, drawn one after the other: their columns differ, as there are at most 64. -/
theorem foldl_drawBit_draws (x y : Nat) (b : Byte) (d : Drawing) {n : Nat} (hn : n ≤ 64) :
    Draws (rowBits x y b n) d ((List.range n).foldl (drawBit x y b) d) := by
  induction n with
  | zero => exact Draws.refl (fun c r ⟨_, h, _⟩ => absurd h (Nat.not_lt_zero _)) d
  | succ n ih =>
    rw [List.range_succ, List.foldl_concat]
    refine (ih (by omega)).trans (drawBit_draws x y b n _) ?_ ?_
    · rintro c r ⟨bit, hbit, -, hcol, -⟩ ⟨-, hcol', -⟩
      omega
    · intro c r
      simp only [rowBits, Nat.lt_succ_iff_lt_or_eq, or_and_right, exists_or, exists_eq_left]

theorem drawByte_draws (x y : Nat) (b : Byte) (d : Drawing) : Draws (rowBits x y b 8) d (drawByte x y b d) :=
  foldl_drawBit_draws x y b d (by decide)

/-- A sprite is its first row and the sprite of the others one display row below. -/
theorem spriteAt_cons (x y : Nat) (b : Byte) (bs : List Byte) (c : Fin 64) (r : Fin 32) :
    spriteAt x y (b :: bs) c r ↔ rowBits x y b 8 c r ∨ spriteAt x (y + 1) bs c r := by
  constructor
  · rintro ⟨row, b', bit, hrow, hbit, hset, hcol, hr⟩
    cases row with
    | zero =>
      obtain rfl : b = b' := by simpa using hrow
      exact .inl ⟨bit, hbit, hset, hcol, by simpa using hr⟩
    | succ row => exact .inr ⟨row, b', bit, by simpa using hrow, hbit, hset, hcol, by rwa [Nat.add_right_comm]⟩
  · rintro (⟨bit, hbit, hset, hcol, hr⟩ | ⟨row, b', bit, hrow, hbit, hset, hcol, hr⟩)
    · exact ⟨0, b, bit, rfl, hbit, hset, hcol, hr⟩
    · exact ⟨row + 1, b', bit, by simpa using hrow, hbit, hset, hcol, by rwa [Nat.add_right_comm] at hr⟩

/-- A pixel of a sprite lies on one of its rows. -/
theorem spriteAt_row {x y : Nat} {rows : List Byte} {c : Fin 64} {r : Fin 32} (h : spriteAt x y rows c r) :
    ∃ row < rows.length, (y + row) % 32 = r.val := by
  obtain ⟨row, b, bit, hrow, -, -, -, hr⟩ := h
  exact ⟨row, (List.getElem?_eq_some_iff.mp hrow).1, hr⟩

/-- A sprite of at most 32 rows, drawn row after row: its rows differ (R178). -/
theorem drawRows_draws (x y : Nat) (rows : List Byte) (d : Drawing) (h : rows.length ≤ 32) :
    Draws (spriteAt x y rows) d (drawRows x y rows d) := by
  induction rows generalizing y d with
  | nil => exact Draws.refl (fun c r hs => by simpa using spriteAt_row hs) d
  | cons b bs ih =>
    rw [List.length_cons] at h
    refine (drawByte_draws x y b d).trans (ih (y + 1) _ (by omega)) ?_ (spriteAt_cons x y b bs)
    rintro c r ⟨-, -, -, -, hr⟩ hs
    obtain ⟨row, hrow, hr'⟩ := spriteAt_row hs
    omega

/-! DXYN -/

/-- DXYN within memory, or with N = 0, completes with its sprite drawn (R175, D31). -/
theorem exec_drw_of_inRange {s : State} (x y : RegIdx) {n : BitVec 4} (h : n = 0 ∨ s.i.toNat + n.toNat ≤ 0x1000) :
    exec (.drw x y n) s =
      .next (s.drawn (s.reg x).toNat (s.reg y).toNat (s.mem.readBytes s.i.toNat n.toNat)) := by
  obtain ⟨t, ht⟩ := exec_next (.drw x y n) s
  obtain ⟨-, rfl⟩ | ⟨hn, hlt, -⟩ := execDrw_cases x y n s t ht
  · exact ht
  · exact absurd h (by simp only [hn, false_or]; omega)

/-- Settles O31: the range check of a sprite that leaves memory raises. -/
theorem drwOutOfRangeRaises : Obligations.DrwOutOfRangeRaises := by
  intro s x y n hn hout
  obtain ⟨t, ht⟩ := exec_next (.drw x y n) s
  obtain ⟨hin, -⟩ | ⟨-, -, rfl⟩ := execDrw_cases x y n s t ht
  · exact absurd hin (by simp only [hn, false_or]; omega)
  · exact raises_of_exec ht

/-- Settles O30: a sprite has at most 15 rows, so its draw is parallel; VF holds the collision. -/
theorem drwIsOneParallelXor : Obligations.DrwIsOneParallelXor := by
  intro s x y n hin
  have hrows : (s.mem.readBytes s.i.toNat n.toNat).length ≤ 32 := by
    have := n.isLt
    rw [Memory.readBytes_length]
    omega
  obtain ⟨hpix, hcol⟩ := drawRows_draws (s.reg x).toNat (s.reg y).toNat _ (s.fb, false) hrows
  simp only [Bool.false_eq_true, false_or] at hcol
  refine ⟨_, exec_drw_of_inRange x y hin, s.drawn_keeps _ _ _, hpix, ?_, ?_, s.drawn_outputs _ _ _, pc_add_two s⟩
  · rw [State.drawn_flag]
    split <;> simp
  · rw [← hcol, State.drawn_flag]
    split <;> simp_all

/-- The sprite bytes are those of the reads. -/
theorem Memory.readBytes_congr {m m' : Memory} (h : ∀ a, m'.read a = m.read a) (base n : Nat) :
    m'.readBytes base n = m.readBytes base n := by
  simp [Memory.readBytes, h]

/-- Settles O32: the first draw keeps the position and the sprite, so the second flips the same pixels back, and
finds lit what the first lit. -/
theorem drawTwiceRestores : Obligations.DrawTwiceRestores := by
  intro s x y n hx hy hin
  obtain ⟨t, ht, hkeeps, hpix, hflag, hcol, -⟩ := drwIsOneParallelXor s x y n hin
  have hi : t.i = s.i := hkeeps.index not_false
  obtain ⟨u, hu, -, hpix', -, hcol', -⟩ := drwIsOneParallelXor t x y n (by rwa [hi])
  rw [hkeeps.regs x hx, hkeeps.regs y hy, hi, Memory.readBytes_congr fun a => hkeeps.mem a not_false] at hpix' hcol'
  refine ⟨t, u, ht, hu, fun c r => ?_, fun hunlit => ⟨?_, ?_⟩⟩
  · rw [Bool.eq_iff_iff, hpix', hpix]
    by_cases hs : spriteAt (s.reg x).toNat (s.reg y).toNat (s.mem.readBytes s.i.toNat n.toNat) c r <;> simp [hs]
  · refine hflag.resolve_left fun hone => ?_
    obtain ⟨c, r, hlit, hs⟩ := hcol.mp hone
    simp [hunlit c r hs] at hlit
  · rintro ⟨c, r, hs⟩
    refine hcol'.mpr ⟨c, r, (hpix c r).mpr ?_, hs⟩
    simp [hunlit c r hs, hs]

end Sys2Proof.Machine
end
